-- ==== Sys2Proof/Word.lean ====
section
/-! DEFINITION. The word types of NBP-CORE and the names of its two phases and six statuses.
Everything that computes stands in later files. -/

namespace Sys2Proof

/-- One command word, as it stands on `cmd_word` (30_encoding.md R80). -/
abbrev CmdWord := BitVec 64

/-- A 32-bit value: a bitmap, a BTAB entry, GEN_CUR, RSP_DATA (00_scope.md R7, R8). -/
abbrev Word32 := BitVec 32

/-- A 6-bit field: N, K, GEN_N, GEN_K (00_scope.md R8; 10_state.md R37, R38). -/
abbrev Field6 := BitVec 6

/-- What GEN_ST can hold (10_state.md R36). Its fourth code, 3, is never held, and
93_implementation_defined.md X4 lets a model's type omit it. -/
inductive GenPhase where
  /-- Code 0: no sequence started since reset. -/
  | idle
  /-- Code 1: a sequence is running; GEN_CUR is the element delivered last. -/
  | active
  /-- Code 2: the last element was delivered and a GNEXT has answered END. -/
  | done
  deriving DecidableEq, Repr, Inhabited

/-- IF_ST, the interface phase (10_state.md R43, R44). BUSY carries the command in progress, which the
spec implies and names only as such (70_reset_and_hazards.md R230). DEDUCED, safe: log entry 2. -/
inductive IfPhase where
  /-- The block accepts a command on an edge where one is offered. -/
  | ready
  /-- `word` was accepted; its response is posted `wait + 1` edges from now. -/
  | busy (word : CmdWord) (wait : Nat)
  /-- A response stands on the response channel until the host takes it. -/
  | resp
  deriving DecidableEq, Repr, Inhabited

/-- The six statuses a response can carry (60_exceptions.md R201). The codes 6 and 7 are reserved and
never produced (93_implementation_defined.md X3), so no status stands for them. -/
inductive Status where
  /-- The command completed; the data is its result. -/
  | ok
  /-- The word spells no command. -/
  | errIllegal
  /-- (n, k), or (i, j), is out of domain. -/
  | errConfig
  /-- The bitmap or rank does not fit (n, k). -/
  | errInput
  /-- GNEXT with no sequence started. -/
  | errState
  /-- The sequence has no further element; not an error. -/
  | sequenceEnd
  deriving DecidableEq, Repr

end Sys2Proof
end

