-- ==== Sys2Proof/Syntax.lean ====
section
/-! DEFINITION. The commands of NBP-CORE command set 1, one constructor per row of the opcode table. -/

namespace Sys2Proof

/-- A command and the operands it uses (30_encoding.md R83). Sizes and ranks are unsigned numbers, as the
spec writes them (00_scope.md R12); a bitmap is 32 bits. A field the command ignores is no operand of it
(30_encoding.md R87). -/
inductive Instr where
  /-- `BINOM i, j`: read the BTAB entry at row i, column j (40_binomial_table.md R105). -/
  | binom (i j : Nat)
  /-- `RANK n, k, b`: the rank of the bitmap b (41_rank_encoder.md R131). -/
  | rank (n k : Nat) (b : Word32)
  /-- `UNRANK n, k, r`: the bitmap of rank r (42_rank_decoder.md R151). -/
  | unrank (n k r : Nat)
  /-- `GSTART n, k`: start or restart the generator (43_generator.md R172). -/
  | gstart (n k : Nat)
  /-- `GNEXT`: the generator's next element (43_generator.md R174). -/
  | gnext
  deriving DecidableEq, Repr

end Sys2Proof
end

