-- ==== Sys2Proof/WellFormed.lean ====
section
/-! DEFINITION. Which commands can be encoded: every operand fits its field (30_encoding.md R81, R90). -/

namespace Sys2Proof

/-- N and K fit their 6-bit fields. -/
abbrev FieldsFit (n k : Nat) : Prop := n < 2 ^ 6 ∧ k < 2 ^ 6

/-- Every operand fits its field: N and K are 0 to 63, ARG below 2^32 (30_encoding.md R90, R91). A value
of N or K from 33 to 63 is well-formed; the command answers ERR_CONFIG when it is performed. -/
def Instr.WellFormed : Instr → Bool
  | .binom i j => decide (FieldsFit i j)
  | .rank n k _ => decide (FieldsFit n k)
  | .unrank n k r => decide (FieldsFit n k ∧ r < 2 ^ 32)
  | .gstart n k => decide (FieldsFit n k)
  | .gnext => true

end Sys2Proof
end

