-- ==== Sys2Proof/Decode.lean ====
section
/-! DEFINITION. The command word: its fields, the decoder, and the encoder (30_encoding.md R80 to R96). -/

namespace Sys2Proof

/-- `W[3:0]`, the opcode (30_encoding.md R80). -/
def opField (w : CmdWord) : Nat := (w.extractLsb' 0 4).toNat
/-- `W[7:4]`, reserved (30_encoding.md R80). -/
def rsv0Field (w : CmdWord) : Nat := (w.extractLsb' 4 4).toNat
/-- `W[13:8]`, the width n, or BINOM's row i (30_encoding.md R80). -/
def nField (w : CmdWord) : Nat := (w.extractLsb' 8 6).toNat
/-- `W[15:14]`, reserved (30_encoding.md R80). -/
def rsv1Field (w : CmdWord) : Nat := (w.extractLsb' 14 2).toNat
/-- `W[21:16]`, the number k of set bits, or BINOM's column j (30_encoding.md R80). -/
def kField (w : CmdWord) : Nat := (w.extractLsb' 16 6).toNat
/-- `W[31:22]`, reserved (30_encoding.md R80). -/
def rsv2Field (w : CmdWord) : Nat := (w.extractLsb' 22 10).toNat
/-- `W[63:32]`, the bitmap or rank (30_encoding.md R80). -/
def argField (w : CmdWord) : Word32 := w.extractLsb' 32 32

/-- Why a word spells no command. -/
inductive Illegal where
  /-- RSV0, RSV1 or RSV2 is not zero (30_encoding.md R85). -/
  | reservedFieldNonzero
  /-- OP is 0x0, or 0x6 to 0xF (30_encoding.md R86). -/
  | reservedOpcode
  deriving DecidableEq, Repr

/-- The command a word spells, or why it spells none (30_encoding.md R83, R85, R86, R95). That GSTART and
GNEXT are illegal on a block without a generator is decided by their meanings, since decoding does not
depend on the block's parameters. -/
def decode (w : CmdWord) : Except Illegal Instr :=
  if rsv0Field w ≠ 0 ∨ rsv1Field w ≠ 0 ∨ rsv2Field w ≠ 0 then .error .reservedFieldNonzero
  else
    match opField w with
    | 1 => .ok (.binom (nField w) (kField w))
    | 2 => .ok (.rank (nField w) (kField w) (argField w))
    | 3 => .ok (.unrank (nField w) (kField w) (argField w).toNat)
    | 4 => .ok (.gstart (nField w) (kField w))
    | 5 => .ok .gnext
    | _ => .error .reservedOpcode

/-- `Enc(op, n, k, arg)` (30_encoding.md R91). -/
def encodeFields (op n k arg : Nat) : CmdWord :=
  (BitVec.ofNat 64 arg <<< 32) ||| (BitVec.ofNat 64 k <<< 16) ||| (BitVec.ofNat 64 n <<< 8)
    ||| BitVec.ofNat 64 op

/-- The word an assembler writes for a well-formed command, its reserved and unused fields 0
(30_encoding.md R90, R91). -/
def encode : Instr → CmdWord
  | .binom i j => encodeFields 1 i j 0
  | .rank n k b => encodeFields 2 n k b.toNat
  | .unrank n k r => encodeFields 3 n k r
  | .gstart n k => encodeFields 4 n k 0
  | .gnext => encodeFields 5 0 0 0

/-- The mask over OP and the three reserved fields (30_encoding.md R84). -/
def opcodeMask : CmdWord := 0x00000000FFC0C0FF

/-- The `match` column of a command's row (30_encoding.md R84). -/
def opcodeMatch : Instr → CmdWord
  | .binom _ _ => 0x1
  | .rank _ _ _ => 0x2
  | .unrank _ _ _ => 0x3
  | .gstart _ _ => 0x4
  | .gnext => 0x5

/-- The command word whose low `nbits` bits are those of `w` and whose other bits are 0. -/
def tableWord (nbits w : Nat) : CmdWord := BitVec.ofNat 64 (w % 2 ^ nbits)

/-- What the decoder reads from an opcode-table row's bits (`none` where it refuses the word). A command
crosses the interface whole, so there is no byte order to lay out (20_memory.md R63). -/
def decodeTableWord (nbits w : Nat) : Option Instr := (decode (tableWord nbits w)).toOption

end Sys2Proof
end

