-- ==== Sys2Proof/Config.lean ====
section
/-! DEFINITION. What is fixed when the block is built, and the values the spec leaves open.
An `opaque` constant here has no body: nothing can be proved of its value. -/

namespace Sys2Proof.Config

/-- MAXBITS, the largest total bit width n (00_scope.md R6). -/
def maxBits : Nat := 32

/-- The parameters of a built block. The spec keeps HAS_GEN as one so that both cases of every rule can
be stated (00_scope.md R9). -/
structure Params where
  /-- HAS_GEN: the generator is present. -/
  hasGen : Bool
  deriving DecidableEq, Repr

/-- The parameters of this hardware: HAS_GEN = true (00_scope.md R9; 43_generator.md R170). -/
def hardware : Params := { hasGen := true }

/-- LATENCY less one, for the command word accepted on the clock edge numbered by the second argument.
LATENCY is OPEN, finite and at least 1 (00_scope.md R10; 70_reset_and_hazards.md R240). A free value:
log entry 1, safe. -/
opaque latencyBeyondOne : CmdWord → Nat → Nat

/-- What `rsp_status` shows on a cycle with rsp_valid = 0, by the number of the coming edge: unspecified
(10_state.md R43; 93_implementation_defined.md X2). A free value: log entry 9, safe. -/
opaque idleRspStatus : Nat → BitVec 3

/-- What `rsp_data` shows on a cycle with rsp_valid = 0, by the number of the coming edge: unspecified
(10_state.md R43; 93_implementation_defined.md X2). A free value: log entry 9, safe. -/
opaque idleRspData : Nat → Word32

/-- Whether a response counts as delivered on an edge where rsp_valid, rsp_ready and rst are all 1:
20_memory.md R65 and 70_reset_and_hazards.md R230 read differently. A free value, read only by the
triples of `observe`: log entry 14, safe. The record of a run does not use it: log entry 20. -/
opaque takenUnderReset : Nat → Bool

/-- What GNEXT delivers (`none`: the end) when GEN_ST is ACTIVE and (GEN_N, GEN_K, GEN_CUR) breaks
10_state.md R40: outside the domain of LAST and NextPattern (00_scope.md R21; 43_generator.md R173;
30_encoding.md R95). A free value: log entry 8, safe. -/
opaque nextOutsideContract : Field6 → Field6 → Word32 → Option Word32

/-- GEN_ST between power-up and the first reset: unspecified (70_reset_and_hazards.md R231).
Log entry 10, safe. -/
opaque powerUpGenSt : GenPhase

/-- GEN_N between power-up and the first reset: unspecified (70_reset_and_hazards.md R231). -/
opaque powerUpGenN : Field6

/-- GEN_K between power-up and the first reset: unspecified (70_reset_and_hazards.md R231). -/
opaque powerUpGenK : Field6

/-- GEN_CUR between power-up and the first reset: unspecified (70_reset_and_hazards.md R231). -/
opaque powerUpGenCur : Word32

/-- IF_ST between power-up and the first reset: unspecified (70_reset_and_hazards.md R231). -/
opaque powerUpIfSt : IfPhase

/-- RSP_STATUS between power-up and the first reset: unspecified (70_reset_and_hazards.md R231). -/
opaque powerUpRspStatus : BitVec 3

/-- RSP_DATA between power-up and the first reset: unspecified (70_reset_and_hazards.md R231). -/
opaque powerUpRspData : Word32

end Sys2Proof.Config
end

