-- ==== Sys2Proof/Machine/State.lean ====
section
/-! DEFINITION. The state of NBP-CORE and of the host's ports, the reasons a step can stop, and the state
after reset (10_state.md R30 to R46). -/

namespace Sys2Proof.Machine

/-- The host's four input ports at one rising clk edge (10_state.md R42). -/
structure Pins where
  /-- `rst`: synchronous reset, active high. -/
  rst : Bool
  /-- `cmd_valid`: the host offers a command on `cmd_word`. -/
  cmdValid : Bool
  /-- `cmd_word`. -/
  cmdWord : CmdWord
  /-- `rsp_ready`: the host takes the response on this edge. -/
  rspReady : Bool
  deriving DecidableEq, Repr

/-- A host that does nothing on an edge: no reset, no command, no response taken. -/
def Pins.idle : Pins := { rst := false, cmdValid := false, cmdWord := 0, rspReady := false }

/-- The machine. Every register of 10_state.md R46 is a field; `host` and `edge` are the model's own. -/
structure State where
  /-- The parameters the block was built with; no step writes them (10_state.md R34). -/
  params : Config.Params
  /-- BTAB, 561 entries in 33 rows (10_state.md R35); no step writes it (40_binomial_table.md R106). -/
  btab : List (List Word32)
  /-- GEN_ST (10_state.md R36). -/
  genSt : GenPhase
  /-- GEN_N (10_state.md R37). -/
  genN : Field6
  /-- GEN_K (10_state.md R38). -/
  genK : Field6
  /-- GEN_CUR (10_state.md R39). -/
  genCur : Word32
  /-- IF_ST, with the command in progress while BUSY (10_state.md R43, R44). -/
  ifSt : IfPhase
  /-- RSP_STATUS (10_state.md R43). -/
  rspStatus : BitVec 3
  /-- RSP_DATA (10_state.md R43). -/
  rspData : Word32
  /-- The model's own: what the host drives on its ports at each edge to come; idle once the list has
  run out. DESIGN CHOICE, safe: log entry 3. -/
  host : List Pins
  /-- The model's own: the number of the coming edge, which free values are applied to. DESIGN CHOICE,
  safe: log entry 11. -/
  edge : Nat
  deriving DecidableEq, Repr

/-- Why the machine stops with a fault. -/
inductive Fault where
  /-- Raised by the meaning of BINOM, RANK or UNRANK when it would read BTAB at an address that does not
  exist: outside the triangle 0 <= j <= i <= MAXBITS (00_scope.md R14; 20_memory.md R60). Safe: it is a
  stop, and the rules make no such read (20_memory.md R64). -/
  | romOutsideTriangle
  deriving DecidableEq, Repr

/-- Why a step is refused. -/
inductive Refusal where
  /-- Raised by `exec` for an instruction that has no meaning yet; no arm does. Safe. -/
  | notModelled (mnemonic : String)
  deriving DecidableEq, Repr

/-- The machine right after reset (10_state.md R46), built as this hardware is, with a host that has
scheduled nothing. -/
def State.reset : State where
  params := Config.hardware
  btab := romContent
  genSt := .idle
  genN := 0
  genK := 0
  genCur := 0
  ifSt := .ready
  rspStatus := 0
  rspData := 0
  host := []
  edge := 0

end Sys2Proof.Machine
end

