-- ==== Sys2Proof/Machine/Flags.lean ====
section
/-! DEFINITION. The codes the registers hold for named values. NBP-CORE has no condition flags: the only
condition a command reports is the status of its own response (10_state.md R33). -/

namespace Sys2Proof.Machine

/-- The 3-bit status codes (60_exceptions.md R201). -/
def statusCode : Status → BitVec 3
  | .ok => 0
  | .errIllegal => 1
  | .errConfig => 2
  | .errInput => 3
  | .errState => 4
  | .sequenceEnd => 5

/-- The 2-bit codes of GEN_ST (10_state.md R36). -/
def genPhaseCode : GenPhase → BitVec 2
  | .idle => 0
  | .active => 1
  | .done => 2

end Sys2Proof.Machine
end

