-- ==== Sys2Proof/Machine/Bits.lean ====
section
/-! DEFINITION. The bit operators of 00_scope.md R13 on 32-bit values. -/

namespace Sys2Proof.Machine

/-- How many of the bits 0 to m - 1 of `v` are 1. -/
def bitsBelow (v : Word32) : Nat → Nat
  | 0 => 0
  | m + 1 => bitsBelow v m + (v.getLsbD m).toNat

/-- `popcount(v)` (00_scope.md R13). -/
def popcount (v : Word32) : Nat := bitsBelow v 32

/-- The first position from `pos` on, among the next `left`, whose bit is 1; the end of the range where
there is none. -/
def firstSetFrom (v : Word32) : (left pos : Nat) → Nat
  | 0, pos => pos
  | left + 1, pos => if v.getLsbD pos then pos else firstSetFrom v left (pos + 1)

/-- `ctz32(v)`, the number of trailing zeros, 32 for zero (00_scope.md R13). -/
def ctz32 (v : Word32) : Nat := firstSetFrom v 32 0

/-- `v` with bit `pos` set to 1. -/
def setBit (v : Word32) (pos : Nat) : Word32 := v ||| (1#32 <<< pos)

end Sys2Proof.Machine
end

