-- ==== Sys2Proof/Machine/Operands.lean ====
section
/-! DEFINITION. The domains operands are judged against, and the ends of a sequence
(00_scope.md R17 to R21). -/

namespace Sys2Proof.Machine

/-- (n, k) is out of domain: the check of ERR_CONFIG (60_exceptions.md R204). -/
abbrev ConfigError (n k : Nat) : Prop := n > Config.maxBits ∨ k > n

/-- (n, k) is a valid configuration (00_scope.md R17). -/
abbrev ConfigValid (n k : Nat) : Prop := k ≤ n ∧ n ≤ Config.maxBits

/-- The bitmap does not fit (n, k): RANK's check of ERR_INPUT (60_exceptions.md R205). -/
abbrev BitmapError (n k : Nat) (b : Word32) : Prop := b >>> n ≠ 0 ∨ popcount b ≠ k

/-- `b` is a valid bitmap for (n, k) (00_scope.md R18). -/
abbrev BitmapValid (n k : Nat) (b : Word32) : Prop := b >>> n = 0 ∧ popcount b = k

/-- `r` is a valid rank for (n, k) (00_scope.md R19). -/
abbrev RankValid (n k r : Nat) : Prop := r < Nat.choose n k

/-- `FIRST(n, k)`, which does not depend on n (00_scope.md R21). -/
def firstBitmap (k : Nat) : Word32 := BitVec.ofNat 32 (2 ^ k - 1)

/-- `LAST(n, k)` (00_scope.md R21). -/
def lastBitmap (n k : Nat) : Word32 := BitVec.ofNat 32 ((2 ^ k - 1) <<< (n - k))

/-- What the generator registers satisfy while GEN_ST is not IDLE, and what LAST and NextPattern are
defined on (10_state.md R40; 43_generator.md R173). -/
abbrev SequenceValid (n k : Field6) (cur : Word32) : Prop :=
  ConfigValid n.toNat k.toNat ∧ BitmapValid n.toNat k.toNat cur

end Sys2Proof.Machine
end

