-- ==== Sys2Proof/Machine/Ops.lean ====
section
/-! DEFINITION. The named operations over BTAB and the registers. NBP-CORE takes no exception: what ends a
failed command is `raise`, an ordinary response (00_scope.md R15; 60_exceptions.md R207, R208). -/

namespace Sys2Proof.Machine

/-- `RomRead(i, j)`: the entry at row i, column j; nothing outside the triangle, where no entry is
(00_scope.md R14; 20_memory.md R60). -/
def romRead (btab : List (List Word32)) (i j : Nat) : Option Word32 :=
  if j ≤ i ∧ i ≤ Config.maxBits then (btab[i]?).bind (fun row => row[j]?) else none

/-- The one form BTAB has: 33 rows, row i of i + 1 entries (10_state.md R35). There is no memory-write
primitive (00_scope.md R14), so no operation can break it. -/
def Memory.wf (btab : List (List Word32)) : Bool :=
  btab.map List.length == (List.range (Config.maxBits + 1)).map (· + 1)

/-- `respond(status, data)`: the response is posted and the command ends (00_scope.md R15;
10_state.md R44). -/
def respond (status : Status) (data : Word32) (s : State) : State :=
  { s with ifSt := .resp, rspStatus := statusCode status, rspData := data }

/-- `raise E`: respond with data 0, no other register written (00_scope.md R15; 60_exceptions.md R207). -/
def raiseStatus (status : Status) (s : State) : State := respond status 0 s

/-- Ends a command whose result was read from BTAB: the result with status OK, or the fault of a read
outside the triangle. -/
def answer (result : Option Word32) (s : State) : Host.Outcome State Fault Refusal :=
  match result with
  | some data => .next (respond .ok data s)
  | none => .fault .romOutsideTriangle

/-- The register writes of GSTART (43_generator.md R172). -/
def startSequence (n k : Nat) (s : State) : State :=
  { s with
    genSt := .active, genN := BitVec.ofNat 6 n, genK := BitVec.ofNat 6 k, genCur := firstBitmap k }

/-- The register write of a GNEXT that delivers `v` (43_generator.md R174). -/
def advanceSequence (v : Word32) (s : State) : State := { s with genCur := v }

/-- The register write of the GNEXT that finds the end (43_generator.md R174). -/
def finishSequence (s : State) : State := { s with genSt := .done }

/-- The host's ports at the coming edge; idle once its schedule has run out. -/
def currentPins (s : State) : Pins := s.host.headD Pins.idle

/-- One edge goes by: the host moves on to its next port values. -/
def passEdge (s : State) : State := { s with host := s.host.tail, edge := s.edge + 1 }

/-- A command is accepted: READY to BUSY (10_state.md R44). The wait is LATENCY less one, free. -/
def acceptCommand (w : CmdWord) (s : State) : State :=
  { s with ifSt := .busy w (Config.latencyBeyondOne w s.edge) }

/-- The host has taken the response: RESP to READY (10_state.md R44). -/
def releaseResponse (s : State) : State := { s with ifSt := .ready }

/-- Every register takes its reset value; BTAB is not touched (10_state.md R46;
70_reset_and_hazards.md R230, R232). -/
def resetRegisters (s : State) : State :=
  { s with
    genSt := .idle, genN := 0, genK := 0, genCur := 0
    ifSt := .ready, rspStatus := 0, rspData := 0 }

/-- The block between power-up and its first reset: BTAB holds its content, every other register an
unspecified value (40_binomial_table.md R106; 70_reset_and_hazards.md R231). The values are drawn once: on
edges without rst before the first reset the model steps them by the rules of `clockEdge`, where the spec
leaves every register and output unspecified throughout. DESIGN CHOICE, unsafe: log entry 18. -/
def powerUpState (host : List Pins) : State where
  params := Config.hardware
  btab := romContent
  genSt := Config.powerUpGenSt
  genN := Config.powerUpGenN
  genK := Config.powerUpGenK
  genCur := Config.powerUpGenCur
  ifSt := Config.powerUpIfSt
  rspStatus := Config.powerUpRspStatus
  rspData := Config.powerUpRspData
  host := host
  edge := 0

end Sys2Proof.Machine
end

