-- ==== Sys2Proof/Machine/Generator.lean ====
section
/-! DEFINITION. GEN: NextPattern, GSTART and GNEXT (43_generator.md). -/

namespace Sys2Proof.Machine

/-- `NextPattern(v)` on 32-bit values (43_generator.md R173). -/
def nextPattern (v : Word32) : Word32 :=
  let t := v ||| (v - 1)
  (t + 1) ||| (((~~~t &&& (t + 1)) - 1) >>> (ctz32 v + 1))

/-- The element after `cur` in the sequence of (n, k), or `none` at its end (43_generator.md R174).
Outside 10_state.md R40 the spec gives LAST and NextPattern no value, and the result is free:
log entry 8. -/
def nextElement (n k : Field6) (cur : Word32) : Option Word32 :=
  if SequenceValid n k cur then
    if cur = lastBitmap n.toNat k.toNat then none else some (nextPattern cur)
  else Config.nextOutsideContract n k cur

/-- GSTART; an illegal word on a block without a generator (43_generator.md R170, R172;
30_encoding.md R95). -/
def execGstart (n k : Nat) (s : State) : Host.Outcome State Fault Refusal :=
  if s.params.hasGen then
    if ConfigError n k then .next (raiseStatus .errConfig s)
    else .next (respond .ok (firstBitmap k) (startSequence n k s))
  else .next (raiseStatus .errIllegal s)

/-- GNEXT; an illegal word on a block without a generator (43_generator.md R170, R174;
30_encoding.md R95). -/
def execGnext (s : State) : Host.Outcome State Fault Refusal :=
  if s.params.hasGen then
    match s.genSt with
    | .idle => .next (raiseStatus .errState s)
    | .done => .next (respond .sequenceEnd 0 s)
    | .active =>
      match nextElement s.genN s.genK s.genCur with
      | none => .next (respond .sequenceEnd 0 (finishSequence s))
      | some v => .next (respond .ok v (advanceSequence v s))
  else .next (raiseStatus .errIllegal s)

end Sys2Proof.Machine
end

