-- ==== Sys2Proof/Machine/RankDecoder.lean ====
section
/-! DEFINITION. RDEC: UnrankWalk and UNRANK (42_rank_decoder.md). -/

namespace Sys2Proof.Machine

/-- The `row` steps left of UnrankWalk, with the cursor (row, col), the remaining rank and the result so
far (42_rank_decoder.md R151). `none` where the walk would read outside BTAB's triangle, which it never
does for a valid rank on the table of R100 (R153). -/
def unrankWalk (btab : List (List Word32)) :
    (row col rem : Nat) → (res : Word32) → Option Word32
  | 0, _, _, res => some res
  | row + 1, 0, rem, res => unrankWalk btab row 0 rem (setBit res row)
  | row + 1, c + 1, rem, res =>
    (romRead btab row c).bind fun e =>
      if rem < e.toNat then unrankWalk btab row c rem res
      else unrankWalk btab row (c + 1) (rem - e.toNat) (setBit res row)

/-- UNRANK (42_rank_decoder.md R151). -/
def execUnrank (n k r : Nat) (s : State) : Host.Outcome State Fault Refusal :=
  if ConfigError n k then .next (raiseStatus .errConfig s)
  else
    match romRead s.btab n k with
    | none => .fault .romOutsideTriangle
    | some count =>
      if r ≥ count.toNat then .next (raiseStatus .errInput s)
      else answer (unrankWalk s.btab n (n - k) r 0) s

end Sys2Proof.Machine
end

