-- ==== Sys2Proof/Machine/RankEncoder.lean ====
section
/-! DEFINITION. RENC: RankWalk and RANK (41_rank_encoder.md). -/

namespace Sys2Proof.Machine

/-- RankWalk from the cursor (row, col) with the total so far (41_rank_encoder.md R131). `none` where the
walk would read outside BTAB's triangle (a row or column below 0 among them), which it never does on the
table of R100 (R133). -/
def rankWalk (btab : List (List Word32)) (b : Word32) : (row col total : Nat) → Option Nat
  | 0, col, total => (romRead btab 0 col).bind fun e => if e = 1 then some total else none
  | row + 1, col, total =>
    (romRead btab (row + 1) col).bind fun e =>
      if e = 1 then some total
      else
        match col with
        | 0 => none
        | c + 1 =>
          if b.getLsbD row then
            (romRead btab row c).bind fun a => rankWalk btab b row (c + 1) (total + a.toNat)
          else rankWalk btab b row c total

/-- RANK (41_rank_encoder.md R131). -/
def execRank (n k : Nat) (b : Word32) (s : State) : Host.Outcome State Fault Refusal :=
  if ConfigError n k then .next (raiseStatus .errConfig s)
  else if BitmapError n k b then .next (raiseStatus .errInput s)
  else answer ((rankWalk s.btab b n (n - k) 0).map (BitVec.ofNat 32)) s

end Sys2Proof.Machine
end

