-- ==== Sys2Proof/Machine/Table.lean ====
section
/-! DEFINITION. BTAB's command: BINOM (40_binomial_table.md). -/

namespace Sys2Proof.Machine

/-- BINOM (40_binomial_table.md R105). -/
def execBinom (i j : Nat) (s : State) : Host.Outcome State Fault Refusal :=
  if ConfigError i j then .next (raiseStatus .errConfig s)
  else answer (romRead s.btab i j) s

end Sys2Proof.Machine
end

