-- ==== Sys2Proof/Machine/Dispatch.lean ====
section
/-! DEFINITION. One arm per command (30_encoding.md R95). -/

namespace Sys2Proof.Machine

def exec (i : Instr) (s : State) : Host.Outcome State Fault Refusal :=
  match i with
  | .binom row col => Sys2Proof.Machine.execBinom row col s
  | .rank n k b => Sys2Proof.Machine.execRank n k b s
  | .unrank n k r => Sys2Proof.Machine.execUnrank n k r s
  | .gstart n k => Sys2Proof.Machine.execGstart n k s
  | .gnext => Sys2Proof.Machine.execGnext s

end Sys2Proof.Machine
end

