-- ==== Sys2Proof/Machine/Ports.lean ====
section
/-! DEFINITION. The block's four output ports, as the host sees them before the coming edge
(10_state.md R42, R43). -/

namespace Sys2Proof.Machine

/-- `cmd_ready`: 1 exactly when IF_ST = READY and rst = 0 (10_state.md R43). -/
def cmdReady (s : State) : Bool := decide (s.ifSt = .ready) && !(currentPins s).rst

/-- `rsp_valid`: 1 exactly when IF_ST = RESP (10_state.md R43). -/
def rspValid (s : State) : Bool := decide (s.ifSt = .resp)

/-- `rsp_status`: RSP_STATUS while rsp_valid = 1, unspecified otherwise (10_state.md R43). -/
def rspStatusPort (s : State) : BitVec 3 :=
  if rspValid s then s.rspStatus else Config.idleRspStatus s.edge

/-- `rsp_data`: RSP_DATA while rsp_valid = 1, unspecified otherwise (10_state.md R43). -/
def rspDataPort (s : State) : Word32 :=
  if rspValid s then s.rspData else Config.idleRspData s.edge

end Sys2Proof.Machine
end

