-- ==== Sys2Proof/Machine/Edge.lean ====
section
/-! DEFINITION. What the block does on one rising clk edge: a reset, a transfer on one of its channels, or
the performing of the command in progress (20_memory.md R65, R66; 30_encoding.md R95). -/

namespace Sys2Proof.Machine

/-- `Exec` on an accepted command word: the command it spells is performed, or the word is illegal
(30_encoding.md R95; 60_exceptions.md R202). -/
def runWord (w : CmdWord) (s : State) : Host.Outcome State Fault Refusal :=
  match decode w with
  | .ok i => exec i s
  | .error _ => .next (raiseStatus .errIllegal s)

/-- One rising clk edge. rst wins (70_reset_and_hazards.md R230); READY accepts an offered command; BUSY
counts its wait down and then performs the command; RESP holds until the response is taken
(10_state.md R44). The same rules step a block that no edge has reset since power-up, of which the spec
says only that its registers are unspecified (70_reset_and_hazards.md R231). DESIGN CHOICE, unsafe:
log entry 18. -/
def clockEdge (s : State) : Host.Outcome State Fault Refusal :=
  if (currentPins s).rst then .next (resetRegisters (passEdge s))
  else
    match s.ifSt with
    | .ready =>
      if (currentPins s).cmdValid then
        .next (passEdge (acceptCommand (currentPins s).cmdWord s))
      else .next (passEdge s)
    | .busy w 0 => runWord w (passEdge s)
    | .busy w (m + 1) => .next (passEdge { s with ifSt := .busy w m })
    | .resp =>
      if (currentPins s).rspReady then .next (passEdge (releaseResponse s))
      else .next (passEdge s)

/-- The state in which the command of word `w` is in progress and is performed on the coming edge, on
which the host does nothing; the host's schedule goes on after that edge. -/
def commandInProgress (w : CmdWord) (s : State) : State :=
  { s with ifSt := .busy w 0, host := Pins.idle :: s.host }

end Sys2Proof.Machine
end

