-- ==== Sys2Proof/Machine/Step.lean ====
section
/-! DEFINITION. One step is one rising clk edge; where a command to be run next is placed. -/

namespace Sys2Proof.Machine

/-- One step of the machine: one rising clk edge (10_state.md R42). -/
def step (s : State) : Host.Outcome State Fault Refusal := clockEdge s

/-- `s` with the command whose low `nbits` bits are those of `w` accepted and due: the very next step
performs it. It stands for the acceptance on an earlier edge: log entry 12. -/
def State.withFetchWord (s : State) (nbits w : Nat) : State :=
  commandInProgress (tableWord nbits w) s

end Sys2Proof.Machine
end

