-- ==== Sys2Proof/Machine/Asm.lean ====
section
/-! DEFINITION. The assembly syntax of 30_encoding.md R90 and R92, on lines of characters. What the spec
leaves to the syntax (letter case, white space, an empty line) is said in log entry 15. -/

namespace Sys2Proof.Machine

/-- What one line of assembly, or one word disassembled, is. -/
inductive AsmLine where
  /-- A command of 30_encoding.md R90. -/
  | command (i : Instr)
  /-- `.word`, any 64-bit value (92_eei_decisions.md D23; 30_encoding.md R92). -/
  | word (w : CmdWord)
  deriving DecidableEq, Repr

/-- The word a command assembles to; refused where an operand does not fit its field
(30_encoding.md R90). -/
def assemble (i : Instr) : Option CmdWord := if i.WellFormed then some (encode i) else none

/-- The word a line assembles to (30_encoding.md R90; 92_eei_decisions.md D23). -/
def assembleLine : AsmLine → Option CmdWord
  | .command i => assemble i
  | .word w => some w

/-- The line a word disassembles to (30_encoding.md R92). -/
def disassemble (w : CmdWord) : AsmLine :=
  match decode w with
  | .ok i => .command i
  | .error _ => .word w

/-- The value of a digit character, below 16. -/
def digitValue (c : Char) : Option Nat :=
  let v := c.toNat
  if 48 ≤ v ∧ v ≤ 57 then some (v - 48)
  else if 65 ≤ v ∧ v ≤ 70 then some (v - 55)
  else if 97 ≤ v ∧ v ≤ 102 then some (v - 87)
  else none

/-- The number a non-empty list of digits of a base spells, most significant first. -/
def digitsValue (base : Nat) : (sofar : Nat) → List Char → Option Nat
  | sofar, [] => some sofar
  | sofar, c :: cs =>
    (digitValue c).bind fun d =>
      if d < base then digitsValue base (sofar * base + d) cs else none

/-- A number: decimal, `0x` hexadecimal or `0b` binary (30_encoding.md R90). -/
def parseNumber : List Char → Option Nat
  | [] => none
  | '0' :: 'x' :: c :: cs => digitsValue 16 0 (c :: cs)
  | '0' :: 'b' :: c :: cs => digitsValue 2 0 (c :: cs)
  | c :: cs => digitsValue 10 0 (c :: cs)

/-- The pieces of a text between occurrences of `sep`. -/
def splitAt (sep : Char) : List Char → List (List Char)
  | [] => [[]]
  | c :: cs =>
    if c = sep then [] :: splitAt sep cs
    else
      match splitAt sep cs with
      | piece :: pieces => (c :: piece) :: pieces
      | [] => [[c]]

/-- A text without the spaces and tabs around it. -/
def trimBlanks (cs : List Char) : List Char :=
  let skip := List.dropWhile fun c : Char => c = ' ' || c = '\t'
  (skip (skip cs).reverse).reverse

/-- A line without its comment, which runs from the first `;` (30_encoding.md R90). -/
def stripComment (cs : List Char) : List Char := cs.takeWhile fun c : Char => c ≠ ';'

/-- The operands of a command, separated by commas (30_encoding.md R90). -/
def parseOperands (cs : List Char) : Option (List Nat) :=
  if cs.isEmpty then some [] else (splitAt ',' cs).mapM fun piece => parseNumber (trimBlanks piece)

/-- The command a mnemonic and its operands spell (30_encoding.md R90; `.word`: 92_eei_decisions.md
D23). A bitmap or `.word` value too wide for its field is refused here, since the field is its type. -/
def buildLine (mnemonic : List Char) (operands : List Nat) : Option AsmLine :=
  match mnemonic, operands with
  | ['B', 'I', 'N', 'O', 'M'], [i, j] => some (.command (.binom i j))
  | ['R', 'A', 'N', 'K'], [n, k, b] =>
    if b < 2 ^ 32 then some (.command (.rank n k (BitVec.ofNat 32 b))) else none
  | ['U', 'N', 'R', 'A', 'N', 'K'], [n, k, r] => some (.command (.unrank n k r))
  | ['G', 'S', 'T', 'A', 'R', 'T'], [n, k] => some (.command (.gstart n k))
  | ['G', 'N', 'E', 'X', 'T'], [] => some (.command .gnext)
  | ['.', 'w', 'o', 'r', 'd'], [w] =>
    if w < 2 ^ 64 then some (.word (BitVec.ofNat 64 w)) else none
  | _, _ => none

/-- One line of assembly, with a command or `.word` on it (30_encoding.md R90). -/
def parseLine (cs : List Char) : Option AsmLine :=
  let text := trimBlanks (stripComment cs)
  let isInWord := fun c : Char => !(c = ' ' || c = '\t')
  (parseOperands (trimBlanks (text.dropWhile isInWord))).bind
    (buildLine (text.takeWhile isInWord))

/-- The character of a hexadecimal digit. -/
def hexDigit (d : Nat) : Char := if d < 10 then Char.ofNat (48 + d) else Char.ofNat (55 + d)

/-- The low `digits` hexadecimal digits of a number, most significant first. -/
def hexDigits (v : Nat) : (digits : Nat) → List Char
  | 0 => []
  | m + 1 => hexDigit (v / 16 ^ m % 16) :: hexDigits v m

/-- The text of a word that matches no row: `.word 0x` and its 16 hex digits (30_encoding.md R92). -/
def wordText (w : CmdWord) : List Char :=
  ['.', 'w', 'o', 'r', 'd', ' ', '0', 'x'] ++ hexDigits w.toNat 16

end Sys2Proof.Machine
end

