-- ==== Sys2Proof/Machine/Run.lean ====
section
/-! DEFINITION. What a run is, and what is observed of it: the (command word, status, data) triples in
acceptance order with the final generator registers (70_reset_and_hazards.md R241); and the history the rules of one command give (20_memory.md R70). -/

namespace Sys2Proof.Machine

/-- One triple of the observation (70_reset_and_hazards.md R241). -/
structure Observation where
  word : CmdWord
  status : BitVec 3
  data : Word32
  deriving DecidableEq, Repr

/-- The generator registers GEN_ST, GEN_N, GEN_K and GEN_CUR (10_state.md R36 to R39). -/
structure GeneratorRegisters where
  genSt : GenPhase
  genN : Field6
  genK : Field6
  genCur : Word32
  deriving DecidableEq, Repr

/-- What a run leaves: its observation, the triples in acceptance order, and beside it the final generator
registers (70_reset_and_hazards.md R241; 92_eei_decisions.md D29). -/
structure RunRecord where
  triples : List Observation
  final : GeneratorRegisters
  deriving DecidableEq, Repr

/-- The generator registers a state holds. -/
def generatorRegisters (s : State) : GeneratorRegisters := ⟨s.genSt, s.genN, s.genK, s.genCur⟩

/-- The command word that transfers on the coming edge (20_memory.md R65). -/
def acceptedWord (s : State) : Option CmdWord :=
  if (currentPins s).cmdValid && cmdReady s then some (currentPins s).cmdWord else none

/-- Whether a response transfers on the coming edge (20_memory.md R65). On an edge with rst = 1 the spec
reads both ways, and the answer is free: log entry 14. -/
def responseTaken (s : State) : Bool :=
  rspValid s && (currentPins s).rspReady
    && (!(currentPins s).rst || Config.takenUnderReset s.edge)

/-- The command outstanding after the coming edge: the word accepted on it, or the one outstanding before
it unless that one's response transfers or a reset abandons it (70_reset_and_hazards.md R230). -/
def outstandingAfter (outstanding : Option CmdWord) (s : State) : Option CmdWord :=
  if (currentPins s).rst then none
  else if responseTaken s then none
  else (acceptedWord s).or outstanding

/-- The triple the coming edge delivers, where it delivers one. -/
def delivered (outstanding : Option CmdWord) (s : State) : List Observation :=
  match outstanding with
  | some w => if responseTaken s then [⟨w, rspStatusPort s, rspDataPort s⟩] else []
  | none => []

/-- The words accepted and the triples delivered over the next `edges` clk edges. -/
def observe : (edges : Nat) → (outstanding : Option CmdWord) → State →
    List CmdWord × List Observation
  | 0, _, _ => ([], [])
  | m + 1, o, s =>
    match step s with
    | .next t =>
      let rest := observe m (outstandingAfter o s) t
      ((acceptedWord s).toList ++ rest.1, delivered o s ++ rest.2)
    | _ => ([], [])

/-- A run is at its end: the host has taken every response, so the block is READY, and offers no more
commands before it resets the block again, if it does (70_reset_and_hazards.md R241). DEDUCED, safe: log
entry 19. -/
def runEnded (s : State) : Bool :=
  decide (s.ifSt = .ready) && (s.host.takeWhile (!·.rst)).all (!·.cmdValid)

/-- The record of the rest of a run, with the command outstanding; `none` where the run does not end
within `edges` clk edges, or a reset cuts it off with a response not yet taken
(70_reset_and_hazards.md R233, R241; log entry 19). A response that the host is ready to take on the reset
edge itself counts as not taken here, whatever `Config.takenUnderReset` is, though 20_memory.md R65 and
70_reset_and_hazards.md R230 read differently. DESIGN CHOICE, unsafe: log entry 20. -/
def recordFrom : (edges : Nat) → (outstanding : Option CmdWord) → State → Option RunRecord
  | 0, _, s => if runEnded s then some ⟨[], generatorRegisters s⟩ else none
  | m + 1, o, s =>
    if runEnded s then some ⟨[], generatorRegisters s⟩
    else if (currentPins s).rst then none
    else
      match step s with
      | .next t =>
        (recordFrom m (outstandingAfter o s) t).map fun r =>
          { r with triples := delivered o s ++ r.triples }
      | _ => none

/-- The record of the run that begins on the coming edge: a reset, over one clk edge or several, and then
the commands the host issues until it has taken the response to the last and offers no more
(70_reset_and_hazards.md R241). `none` where the coming edge is no reset, or the run does not end within
`edges` clk edges, or a reset cuts it off (log entries 19 and 20). -/
def recordRun : (edges : Nat) → State → Option RunRecord
  | 0, _ => none
  | m + 1, s =>
    if (currentPins s).rst then
      match step s with
      | .next t => if (currentPins t).rst then recordRun m t else recordFrom m none t
      | _ => none
    else none

/-- The history of a sequence of commands: the response to each is `Exec` of its word in the state the
earlier ones leave (20_memory.md R70). -/
def history : List CmdWord → State → List Observation
  | [], _ => []
  | w :: ws, s =>
    match runWord w s with
    | .next t => ⟨w, t.rspStatus, t.rspData⟩ :: history ws t
    | _ => []

/-- The state a sequence of command words leaves (20_memory.md R70), stopping where one stops. -/
def runWords : List CmdWord → State → Host.Outcome State Fault Refusal
  | [], s => .next s
  | w :: ws, s =>
    match runWord w s with
    | .next t => runWords ws t
    | .fault r => .fault r
    | .refused r => .refused r

/-- Commands performed one after another (20_memory.md R70), stopping where one stops. -/
def execAll : List Instr → State → Host.Outcome State Fault Refusal
  | [], s => .next s
  | i :: is, s =>
    match exec i s with
    | .next t => execAll is t
    | .fault r => .fault r
    | .refused r => .refused r

/-- `m` clock edges, stopping where one stops. -/
def clockEdges : Nat → State → Host.Outcome State Fault Refusal
  | 0, s => .next s
  | m + 1, s =>
    match step s with
    | .next t => clockEdges m t
    | .fault r => .fault r
    | .refused r => .refused r

end Sys2Proof.Machine
end

