-- ==== Sys2Proof/Safety.lean ====
section
/-! DEFINITION. The terms statements are made in: which states the rules hold in, and what a step that
does not stop is. -/

namespace Sys2Proof.Machine

/-- BTAB holds the content of 40_binomial_table.md R102. -/
abbrev State.RomIntact (s : State) : Prop := s.btab = romContent

/-- The generator registers satisfy 10_state.md R40. -/
def State.GeneratorConsistent (s : State) : Prop :=
  s.genSt ≠ .idle →
    SequenceValid s.genN s.genK s.genCur ∧
      (s.genSt = .done → s.genCur = lastBitmap s.genN.toNat s.genK.toNat)

/-- The response registers hold a status that is produced, with data 0 unless it is OK
(60_exceptions.md R200, R201). -/
def State.ResponseConsistent (s : State) : Prop :=
  s.rspStatus.toNat ≤ 5 ∧ (s.rspStatus ≠ statusCode .ok → s.rspData = 0)

/-- On a block without a generator, the generator registers are never written (43_generator.md R170). -/
def State.AbsentGeneratorUntouched (s : State) : Prop :=
  s.params.hasGen = false → s.genSt = .idle ∧ s.genN = 0 ∧ s.genK = 0 ∧ s.genCur = 0

/-- The invariant of the machine: every clause is one that a rule of the spec gives. -/
structure State.Inv (s : State) : Prop where
  rom : s.RomIntact
  generator : s.GeneratorConsistent
  response : s.ResponseConsistent
  absent : s.AbsentGeneratorUntouched

/-- `s` after a response with this status code and data, and nothing else changed: READY, BUSY or RESP,
the block is then in RESP (00_scope.md R15; 10_state.md R44). -/
def State.posted (s : State) (code : BitVec 3) (data : Word32) : State :=
  { s with ifSt := .resp, rspStatus := code, rspData := data }

/-- The number of valid bitmaps for (n, k) that are numerically smaller than `b`: its rank
(41_rank_encoder.md R130). -/
def smallerBitmaps (n k : Nat) (b : Word32) : Nat :=
  Nat.count (fun m => BitmapValid n k (BitVec.ofNat 32 m)) b.toNat

/-- The word spells no command on any block: a reserved field is not 0, or the opcode is reserved
(30_encoding.md R85, R86). -/
abbrev IllegalWord (w : CmdWord) : Prop :=
  rsv0Field w ≠ 0 ∨ rsv1Field w ≠ 0 ∨ rsv2Field w ≠ 0 ∨ opField w = 0 ∨ 6 ≤ opField w

/-- BINOM, RANK and UNRANK: the commands that have nothing to do with the generator. -/
def usesTableOnly : Instr → Bool
  | .binom _ _ | .rank _ _ _ | .unrank _ _ _ => true
  | .gstart _ _ | .gnext => false

/-- A step that neither faults nor is refused. -/
def StepsOn (s : State) : Prop := ∃ t, step s = .next t

end Sys2Proof.Machine
end

