-- ==== Sys2Proof/Certificates/Slice0/Obligations.lean ====
section
/-! DEFINITION. The statements for the provers. `s.posted code data` is `s` with a response posted and
nothing else changed, so an equation with it says an instruction's result and its whole frame. -/

open Sys2Proof Sys2Proof.Machine

/-! ### The command word -/

/-- 30_encoding.md R90, R91, R83: the decoder reads back every command the encoder writes. -/
def Obligations.DecodeEncodeRoundTrip : Prop :=
  ∀ i : Instr, i.WellFormed = true → decode (encode i) = .ok i

/-- 30_encoding.md R91: Enc is the formula given, and it and the field extraction are inverse. -/
def Obligations.EncAndFieldExtractionAreInverse : Prop :=
  (∀ op n k arg : Nat, op < 16 → n < 64 → k < 64 → arg < 2 ^ 32 →
    (encodeFields op n k arg).toNat = (arg <<< 32) ||| (k <<< 16) ||| (n <<< 8) ||| op ∧
    opField (encodeFields op n k arg) = op ∧ nField (encodeFields op n k arg) = n ∧
    kField (encodeFields op n k arg) = k ∧ (argField (encodeFields op n k arg)).toNat = arg ∧
    rsv0Field (encodeFields op n k arg) = 0 ∧ rsv1Field (encodeFields op n k arg) = 0 ∧
    rsv2Field (encodeFields op n k arg) = 0) ∧
  (∀ w : CmdWord, rsv0Field w = 0 → rsv1Field w = 0 → rsv2Field w = 0 →
    encodeFields (opField w) (nField w) (kField w) (argField w).toNat = w)

/-- 30_encoding.md R84: which command a word selects, by its match under the mask; a word that matches no
row is answered ERR_ILLEGAL. -/
def Obligations.MatchAndMaskSelectTheCommand : Prop :=
  ∀ w : CmdWord,
    (w &&& 0x00000000FFC0C0FF = 0x1 → decode w = .ok (.binom (nField w) (kField w))) ∧
    (w &&& 0x00000000FFC0C0FF = 0x2 →
      decode w = .ok (.rank (nField w) (kField w) (argField w))) ∧
    (w &&& 0x00000000FFC0C0FF = 0x3 →
      decode w = .ok (.unrank (nField w) (kField w) (argField w).toNat)) ∧
    (w &&& 0x00000000FFC0C0FF = 0x4 → decode w = .ok (.gstart (nField w) (kField w))) ∧
    (w &&& 0x00000000FFC0C0FF = 0x5 → decode w = .ok .gnext) ∧
    ((∀ i : Instr, w &&& 0x00000000FFC0C0FF ≠ opcodeMatch i) →
      (∃ e, decode w = .error e) ∧ ∀ s : State, runWord w s = .next (s.posted 1#3 0#32))

/-- 30_encoding.md R87: the fields a command does not use change nothing. -/
def Obligations.UnusedFieldsHaveNoEffect : Prop :=
  ∀ (w w' : CmdWord) (s : State), w &&& opcodeMask = w' &&& opcodeMask →
    (w &&& opcodeMask = 1 ∨ w &&& opcodeMask = 4 →
      nField w = nField w' → kField w = kField w' → runWord w s = runWord w' s) ∧
    (w &&& opcodeMask = 5 → runWord w s = runWord w' s) ∧
    (IllegalWord w → runWord w s = runWord w' s)

/-- 30_encoding.md R96: the five worked encodings, both ways. -/
def Obligations.WorkedEncodingsRead : Prop :=
  (encode (.binom 32 16) = 0x0000000000102001 ∧
    decode 0x0000000000102001 = .ok (.binom 32 16)) ∧
  (encode (.rank 8 5 47) = 0x0000002F00050802 ∧
    decode 0x0000002F00050802 = .ok (.rank 8 5 47)) ∧
  (encode (.unrank 8 5 2) = 0x0000000200050803 ∧
    decode 0x0000000200050803 = .ok (.unrank 8 5 2)) ∧
  (encode (.gstart 4 2) = 0x0000000000020404 ∧ decode 0x0000000000020404 = .ok (.gstart 4 2)) ∧
  (encode .gnext = 0x0000000000000005 ∧ decode 0x0000000000000005 = .ok .gnext)

/-- 60_exceptions.md R202; 30_encoding.md R85, R86: an illegal word is answered ERR_ILLEGAL with data 0
and writes no other register; so are GSTART and GNEXT on a block without a generator. -/
def Obligations.IllegalWordsAnswerErrIllegal : Prop :=
  ∀ (w : CmdWord) (s : State),
    (IllegalWord w → runWord w s = .next (s.posted 1#3 0#32)) ∧
    (s.params.hasGen = false → (opField w = 4 ∨ opField w = 5) →
      runWord w s = .next (s.posted 1#3 0#32))

/-- 30_encoding.md R81: what is decoded is well-formed. -/
def Obligations.DecodedCommandsAreWellFormed : Prop :=
  ∀ (w : CmdWord) (i : Instr), decode w = .ok i → i.WellFormed = true

/-- 30_encoding.md R87, R90, R92: disassembling a word and assembling the line again gives a word that
does the same in every state; and what a command assembles to disassembles to that command. -/
def Obligations.DisassembledLineRunsAlike : Prop :=
  (∀ w : CmdWord, ∃ w', assembleLine (disassemble w) = some w' ∧
    ∀ s : State, runWord w' s = runWord w s) ∧
  (∀ (i : Instr) (w : CmdWord), assemble i = some w → disassemble w = .command i)

/-! ### BTAB and BINOM -/

/-- 40_binomial_table.md R100: the entries of BTAB satisfy the recurrence, with no sum wrapped, and are
the binomial coefficients. -/
def Obligations.RomHoldsBinomialCoefficients : Prop :=
  (∀ i, i ≤ 32 → romRead romContent i 0 = some 1#32 ∧ romRead romContent i i = some 1#32) ∧
  (∀ i j, 0 < j → j < i → i ≤ 32 →
    ∃ a b v, romRead romContent (i - 1) (j - 1) = some a ∧
      romRead romContent (i - 1) j = some b ∧ romRead romContent i j = some v ∧
      v.toNat = a.toNat + b.toNat) ∧
  (∀ i j, j ≤ i → i ≤ 32 →
    ∃ v, romRead romContent i j = some v ∧ v.toNat = Nat.choose i j ∧ pascalEntry i j = v.toNat)

/-- 40_binomial_table.md R104: the ROM is the source's build for MAXBITS = 32. -/
def Obligations.RomIsTheBuiltTable : Prop :=
  romContent = (buildRows [1] 32).map (·.map (BitVec.ofNat 32)) ∧
  romContent.length = 33 ∧
  ∀ (i : Nat) (row : List Word32), romContent[i]? = some row → row.length = i + 1

/-- 40_binomial_table.md R101, R103: the largest entry, and where an entry is 1. -/
def Obligations.RomEntryBoundsAndEdges : Prop :=
  ∀ (i j : Nat) (v : Word32), romRead romContent i j = some v →
    1 ≤ v.toNat ∧ v.toNat ≤ 601080390 ∧ (v = 1#32 ↔ j = 0 ∨ j = i)

/-- 20_memory.md R60, R64: an address outside the triangle holds no entry. -/
def Obligations.RomHasNoEntryOutsideTriangle : Prop :=
  ∀ (btab : List (List Word32)) (i j : Nat), (32 < i ∨ i < j) → romRead btab i j = none

/-- 40_binomial_table.md R105: BINOM. -/
def Obligations.BinomAnswersTheCoefficient : Prop :=
  ∀ s : State,
    (∀ i j : Nat, s.RomIntact → j ≤ i → i ≤ 32 →
      exec (.binom i j) s = .next (s.posted 0#3 (BitVec.ofNat 32 (Nat.choose i j))) ∧
        Nat.choose i j < 2 ^ 30) ∧
    (∀ i j : Nat, (32 < i ∨ i < j) → exec (.binom i j) s = .next (s.posted 2#3 0#32)) ∧
    (∀ w : CmdWord, w &&& 0x00000000FFC0C0FF = 0x1 →
      runWord w s = exec (.binom (nField w) (kField w)) s)

/-! ### RENC and RANK -/

/-- 41_rank_encoder.md R130: RANK answers the number of valid bitmaps numerically smaller. -/
def Obligations.RankCountsSmallerBitmaps : Prop :=
  ∀ (n k : Nat) (b : Word32) (s : State), s.RomIntact → ConfigValid n k → BitmapValid n k b →
    exec (.rank n k b) s = .next (s.posted 0#3 (BitVec.ofNat 32 (smallerBitmaps n k b))) ∧
      smallerBitmaps n k b < 2 ^ 32

/-- 41_rank_encoder.md R138: the closed form of the result. The m-th set bit p contributes C(p, m). -/
def Obligations.RankHasTheClosedForm : Prop :=
  ∀ (n k : Nat) (b : Word32) (s : State), s.RomIntact → ConfigValid n k → BitmapValid n k b →
    exec (.rank n k b) s = .next (s.posted 0#3 (BitVec.ofNat 32
      (∑ p ∈ (Finset.range 32).filter (fun p => b.getLsbD p = true),
        Nat.choose p (bitsBelow b (p + 1)))))

/-- 41_rank_encoder.md R135: the rank is below C(n, k), and below 2^30. -/
def Obligations.RankIsBelowTheCoefficient : Prop :=
  ∀ (n k : Nat) (b : Word32) (s : State), s.RomIntact → ConfigValid n k → BitmapValid n k b →
    ∃ r, exec (.rank n k b) s = .next (s.posted 0#3 (BitVec.ofNat 32 r)) ∧
      r < Nat.choose n k ∧ r < 2 ^ 30

/-- 41_rank_encoder.md R131, R132, R134: the walk, one step at a time, on the intact table. -/
def Obligations.RankWalkFollowsItsCursor : Prop :=
  ∀ (b : Word32) (row col total : Nat), row ≤ 32 →
    ((col = 0 ∨ col = row) → rankWalk romContent b row col total = some total) ∧
    (0 < col → col < row → b.getLsbD (row - 1) = true →
      rankWalk romContent b row col total =
        rankWalk romContent b (row - 1) col (total + Nat.choose (row - 1) (col - 1))) ∧
    (0 < col → col < row → b.getLsbD (row - 1) = false →
      rankWalk romContent b row col total = rankWalk romContent b (row - 1) (col - 1) total)

/-- 41_rank_encoder.md R133, R137: on the intact table the walk reads only inside the triangle, for every
32-bit b, valid or not, and its value is below C(n, k). -/
def Obligations.RankWalkStaysInsideTheTriangle : Prop :=
  ∀ (n k : Nat) (b : Word32), ConfigValid n k →
    ∃ total, rankWalk romContent b n (n - k) 0 = some total ∧ total < Nat.choose n k

/-- 41_rank_encoder.md R136: the corner cases of RANK. -/
def Obligations.RankCornerCases : Prop :=
  ∀ (n k : Nat) (b : Word32) (s : State),
    (s.RomIntact → ConfigValid n k →
      exec (.rank n k (firstBitmap k)) s = .next (s.posted 0#3 0#32) ∧
      exec (.rank n k (lastBitmap n k)) s =
        .next (s.posted 0#3 (BitVec.ofNat 32 (Nat.choose n k - 1))) ∧
      exec (.rank n 0 0#32) s = .next (s.posted 0#3 0#32) ∧
      exec (.rank n n (BitVec.ofNat 32 (2 ^ n - 1))) s = .next (s.posted 0#3 0#32)) ∧
    (b ≠ 0#32 → exec (.rank 0 0 b) s = .next (s.posted 3#3 0#32)) ∧
    (ConfigValid n k → popcount b ≠ k → exec (.rank n k b) s = .next (s.posted 3#3 0#32)) ∧
    (ConfigValid n k → (∃ p, n ≤ p ∧ b.getLsbD p = true) →
      exec (.rank n k b) s = .next (s.posted 3#3 0#32)) ∧
    b >>> 32 = 0#32 ∧
    (n < k ∨ 32 < n → exec (.rank n k b) s = .next (s.posted 2#3 0#32))

/-- 41_rank_encoder.md R131; 30_encoding.md R84: a RANK word performs RANK on its fields. -/
def Obligations.RankWordRunsRank : Prop :=
  ∀ (w : CmdWord) (s : State), w &&& 0x00000000FFC0C0FF = 0x2 →
    runWord w s = exec (.rank (nField w) (kField w) (argField w)) s

/-! ### RDEC and UNRANK -/

/-- 42_rank_decoder.md R150: UNRANK answers the valid bitmap whose rank is r. -/
def Obligations.UnrankAnswersTheBitmapOfTheRank : Prop :=
  ∀ (n k r : Nat) (s : State), s.RomIntact → ConfigValid n k → RankValid n k r →
    ∃ b : Word32, exec (.unrank n k r) s = .next (s.posted 0#3 b) ∧
      BitmapValid n k b ∧ smallerBitmaps n k b = r

/-- 42_rank_decoder.md R155: RANK and UNRANK invert each other, and UNRANK is strictly increasing. -/
def Obligations.RankAndUnrankAreInverse : Prop :=
  ∀ (n k : Nat) (s : State), s.RomIntact → ConfigValid n k →
    (∀ r, RankValid n k r → ∃ b : Word32, BitmapValid n k b ∧
      exec (.unrank n k r) s = .next (s.posted 0#3 b) ∧
      exec (.rank n k b) s = .next (s.posted 0#3 (BitVec.ofNat 32 r))) ∧
    (∀ b : Word32, BitmapValid n k b → ∃ r, RankValid n k r ∧
      exec (.rank n k b) s = .next (s.posted 0#3 (BitVec.ofNat 32 r)) ∧
      exec (.unrank n k r) s = .next (s.posted 0#3 b)) ∧
    (∀ (r r' : Nat) (b b' : Word32), r < r' → RankValid n k r' →
      exec (.unrank n k r) s = .next (s.posted 0#3 b) →
      exec (.unrank n k r') s = .next (s.posted 0#3 b') → b.toNat < b'.toNat)

/-- 42_rank_decoder.md R151, R152, R154: the walk, one step at a time, on the intact table; it ends after
the last of its row steps. -/
def Obligations.UnrankWalkFollowsItsCursor : Prop :=
  ∀ (row col rem : Nat) (res : Word32), row < 32 → col ≤ row + 1 →
    unrankWalk romContent 0 col rem res = some res ∧
    (0 < col → rem < Nat.choose row (col - 1) →
      unrankWalk romContent (row + 1) col rem res =
        unrankWalk romContent row (col - 1) rem res) ∧
    (0 < col → Nat.choose row (col - 1) ≤ rem →
      unrankWalk romContent (row + 1) col rem res =
        unrankWalk romContent row col (rem - Nat.choose row (col - 1))
          (res ||| BitVec.twoPow 32 row)) ∧
    (col = 0 → unrankWalk romContent (row + 1) col rem res =
      unrankWalk romContent row col rem (res ||| BitVec.twoPow 32 row))

/-- 42_rank_decoder.md R152, R153: from a cursor inside the walk's invariant the walk reads only inside
the triangle, and writes only the bits below its row. -/
def Obligations.UnrankWalkStaysInsideTheTriangle : Prop :=
  ∀ (row col rem : Nat) (res : Word32), col ≤ row → row ≤ 32 → rem < Nat.choose row col →
    ∃ b, unrankWalk romContent row col rem res = some b ∧
      ∀ p, row ≤ p → b.getLsbD p = res.getLsbD p

/-- 42_rank_decoder.md R156: the corner cases of UNRANK. -/
def Obligations.UnrankCornerCases : Prop :=
  ∀ (n k r : Nat) (s : State),
    (s.RomIntact → ConfigValid n k →
      exec (.unrank n k 0) s = .next (s.posted 0#3 (firstBitmap k)) ∧
      exec (.unrank n k (Nat.choose n k - 1)) s = .next (s.posted 0#3 (lastBitmap n k)) ∧
      exec (.unrank n 0 0) s = .next (s.posted 0#3 0#32) ∧
      exec (.unrank n n 0) s = .next (s.posted 0#3 (BitVec.ofNat 32 (2 ^ n - 1))) ∧
      (1 ≤ r → exec (.unrank n 0 r) s = .next (s.posted 3#3 0#32) ∧
        exec (.unrank n n r) s = .next (s.posted 3#3 0#32)) ∧
      (Nat.choose n k ≤ r → exec (.unrank n k r) s = .next (s.posted 3#3 0#32))) ∧
    (s.RomIntact →
      exec (.unrank 32 16 601080389) s = .next (s.posted 0#3 0xFFFF0000#32)) ∧
    (n < k ∨ 32 < n → exec (.unrank n k r) s = .next (s.posted 2#3 0#32))

/-- 42_rank_decoder.md R151; 30_encoding.md R84: an UNRANK word performs UNRANK on its fields. -/
def Obligations.UnrankWordRunsUnrank : Prop :=
  ∀ (w : CmdWord) (s : State), w &&& 0x00000000FFC0C0FF = 0x3 →
    runWord w s = exec (.unrank (nField w) (kField w) (argField w).toNat) s

/-! ### GEN, GSTART and GNEXT -/

/-- 00_scope.md R21: FIRST and LAST, as numbers, and as the smallest and largest valid bitmap. -/
def Obligations.FirstAndLastAreTheExtremes : Prop :=
  ∀ n k : Nat, ConfigValid n k →
    (firstBitmap k).toNat = 2 ^ k - 1 ∧ (lastBitmap n k).toNat = (2 ^ k - 1) <<< (n - k) ∧
    (firstBitmap k).toNat < 2 ^ n ∧ (lastBitmap n k).toNat < 2 ^ n ∧
    BitmapValid n k (firstBitmap k) ∧ BitmapValid n k (lastBitmap n k) ∧
    ∀ b : Word32, BitmapValid n k b →
      (firstBitmap k).toNat ≤ b.toNat ∧ b.toNat ≤ (lastBitmap n k).toNat

/-- 43_generator.md R172: GSTART. -/
def Obligations.GstartStartsTheSequence : Prop :=
  ∀ s : State,
    (∀ n k : Nat, s.params.hasGen = true → k ≤ n → n ≤ 32 →
      exec (.gstart n k) s = .next
        { s with
          genSt := .active, genN := BitVec.ofNat 6 n, genK := BitVec.ofNat 6 k
          genCur := BitVec.ofNat 32 (2 ^ k - 1)
          ifSt := .resp, rspStatus := 0#3, rspData := BitVec.ofNat 32 (2 ^ k - 1) }) ∧
    (∀ n k : Nat, s.params.hasGen = true → (32 < n ∨ n < k) →
      exec (.gstart n k) s = .next (s.posted 2#3 0#32)) ∧
    (∀ n k : Nat, s.params.hasGen = false →
      exec (.gstart n k) s = .next (s.posted 1#3 0#32)) ∧
    (∀ w : CmdWord, w &&& 0x00000000FFC0C0FF = 0x4 →
      runWord w s = exec (.gstart (nField w) (kField w)) s)

/-- 43_generator.md R174, with the formula of R173 for the successor: GNEXT. -/
def Obligations.GnextFollowsItsPhase : Prop :=
  ∀ s : State,
    (s.params.hasGen = true → s.genSt = .idle → exec .gnext s = .next (s.posted 4#3 0#32)) ∧
    (s.params.hasGen = true → s.genSt = .done → exec .gnext s = .next (s.posted 5#3 0#32)) ∧
    (s.params.hasGen = true → s.genSt = .active → SequenceValid s.genN s.genK s.genCur →
      s.genCur = lastBitmap s.genN.toNat s.genK.toNat →
      exec .gnext s =
        .next { s with genSt := .done, ifSt := .resp, rspStatus := 5#3, rspData := 0#32 }) ∧
    (s.params.hasGen = true → s.genSt = .active → SequenceValid s.genN s.genK s.genCur →
      s.genCur ≠ lastBitmap s.genN.toNat s.genK.toNat →
      ∀ t v : Word32, t = s.genCur ||| (s.genCur - 1#32) →
        v = ((t + 1#32) |||
          (((~~~t &&& (t + 1#32)) - 1#32) >>> (ctz32 s.genCur + 1))) →
        exec .gnext s =
          .next { s with genCur := v, ifSt := .resp, rspStatus := 0#3, rspData := v }) ∧
    (s.params.hasGen = false → exec .gnext s = .next (s.posted 1#3 0#32)) ∧
    (∀ w : CmdWord, w &&& 0x00000000FFC0C0FF = 0x5 → runWord w s = exec .gnext s)

/-- 00_scope.md R13: ctz32. -/
def Obligations.TrailingZerosAreCounted : Prop :=
  ctz32 0#32 = 32 ∧
  ∀ v : Word32, v ≠ 0#32 →
    ctz32 v < 32 ∧ v.getLsbD (ctz32 v) = true ∧ ∀ p, p < ctz32 v → v.getLsbD p = false

/-- 43_generator.md R178: the arithmetic form of the successor step. -/
def Obligations.NextPatternHasItsArithmeticForm : Prop :=
  ∀ (n k : Nat) (v : Word32), ConfigValid n k → BitmapValid n k v → v ≠ lastBitmap n k →
    ∃ q, ctz32 v < q ∧ q < n ∧ v.getLsbD q = false ∧
      (∀ i, ctz32 v ≤ i → i < q → v.getLsbD i = true) ∧
      (nextPattern v).toNat =
        v.toNat - (2 ^ q - 2 ^ ctz32 v) + 2 ^ q + 2 ^ (q - ctz32 v - 1) - 1

/-- 43_generator.md R176: GNEXT delivers the smallest valid bitmap greater than the last one. -/
def Obligations.GnextDeliversTheSuccessor : Prop :=
  ∀ s : State, s.params.hasGen = true → s.genSt = .active →
    SequenceValid s.genN s.genK s.genCur →
    s.genCur ≠ lastBitmap s.genN.toNat s.genK.toNat →
    ∃ v : Word32,
      exec .gnext s =
        .next { s with genCur := v, ifSt := .resp, rspStatus := 0#3, rspData := v } ∧
      BitmapValid s.genN.toNat s.genK.toNat v ∧ s.genCur.toNat < v.toNat ∧
      ∀ c : Word32, BitmapValid s.genN.toNat s.genK.toNat c → s.genCur.toNat < c.toNat →
        v.toNat ≤ c.toNat

/-- 43_generator.md R171, R176, R179: a sequence delivers its element of rank m in its m-th response, and
reports the end from the C(n, k)-th on. -/
def Obligations.GeneratorDeliversTheWholeSequence : Prop :=
  ∀ (n k m : Nat) (s : State), s.params.hasGen = true → s.RomIntact → ConfigValid n k →
    (m < Nat.choose n k →
      ∃ t, execAll (.gstart n k :: List.replicate m .gnext) s = .next t ∧
        t.genSt = .active ∧ t.rspStatus = 0#3 ∧ t.rspData = t.genCur ∧
        exec (.unrank n k m) t = .next (t.posted 0#3 t.genCur) ∧
        exec (.rank n k t.genCur) t = .next (t.posted 0#3 (BitVec.ofNat 32 m))) ∧
    (Nat.choose n k ≤ m →
      ∃ t, execAll (.gstart n k :: List.replicate m .gnext) s = .next t ∧
        t.genSt = .done ∧ t.rspStatus = 5#3 ∧ t.rspData = 0#32 ∧ t.genCur = lastBitmap n k)

/-- 43_generator.md R170: a block without a generator answers ERR_ILLEGAL; this one has it. -/
def Obligations.AbsentGeneratorIsIllegal : Prop :=
  (∀ s : State, s.params.hasGen = false →
    (∀ n k : Nat, exec (.gstart n k) s = .next (s.posted 1#3 0#32)) ∧
    exec .gnext s = .next (s.posted 1#3 0#32)) ∧
  State.reset.params.hasGen = true

/-- 10_state.md R41; 20_memory.md R67: BINOM, RANK and UNRANK neither read nor write the generator. From
any two states with the same table they give the same response, and change nothing else. -/
def Obligations.TableCommandsIgnoreTheGenerator : Prop :=
  ∀ (i : Instr) (s s' t : State), usesTableOnly i = true → s.btab = s'.btab →
    exec i s = .next t → exec i s' = .next (s'.posted t.rspStatus t.rspData)

/-- 10_state.md R41: a BINOM, RANK or UNRANK between two GNEXT commands does not disturb the sequence. -/
def Obligations.TableCommandsDoNotDisturbTheSequence : Prop :=
  ∀ (i : Instr) (s t : State), usesTableOnly i = true → exec i s = .next t →
    exec .gnext t = exec .gnext s ∧ ∀ n k : Nat, exec (.gstart n k) t = exec (.gstart n k) s

/-- 20_memory.md R67: two GSTARTs with the same operands leave what one leaves. -/
def Obligations.GstartTwiceIsGstartOnce : Prop :=
  ∀ (n k : Nat) (s t : State), exec (.gstart n k) s = .next t → exec (.gstart n k) t = .next t

/-- 10_state.md R36 to R39: away from a reset edge, only GSTART writes GEN_N and GEN_K, and only GSTART
and GNEXT write GEN_ST and GEN_CUR. -/
def Obligations.OnlyGeneratorCommandsWriteTheGenerator : Prop :=
  ∀ s t : State, step s = .next t → (currentPins s).rst = false →
    ((t.genN ≠ s.genN ∨ t.genK ≠ s.genK) →
      ∃ w, s.ifSt = .busy w 0 ∧ w &&& opcodeMask = 4) ∧
    ((t.genSt ≠ s.genSt ∨ t.genCur ≠ s.genCur) →
      ∃ w, s.ifSt = .busy w 0 ∧ (w &&& opcodeMask = 4 ∨ w &&& opcodeMask = 5))

/-! ### Responses -/

/-- 60_exceptions.md R204: ERR_CONFIG comes before any read of the table, so it does not depend on it;
GNEXT never answers it. -/
def Obligations.ConfigErrorsAreRejectedFirst : Prop :=
  ∀ s : State,
    (∀ (n k r : Nat) (b : Word32), (32 < n ∨ n < k) →
      exec (.binom n k) s = .next (s.posted 2#3 0#32) ∧
      exec (.rank n k b) s = .next (s.posted 2#3 0#32) ∧
      exec (.unrank n k r) s = .next (s.posted 2#3 0#32) ∧
      (s.params.hasGen = true → exec (.gstart n k) s = .next (s.posted 2#3 0#32))) ∧
    (∀ t, exec .gnext s = .next t → t.rspStatus ≠ 2#3)

/-- 60_exceptions.md R205: the operand and state errors. -/
def Obligations.OperandErrorsAreReported : Prop :=
  ∀ (n k r : Nat) (b : Word32) (s : State),
    (ConfigValid n k → (b >>> n ≠ 0#32 ∨ popcount b ≠ k) →
      exec (.rank n k b) s = .next (s.posted 3#3 0#32)) ∧
    (s.RomIntact → ConfigValid n k → Nat.choose n k ≤ r →
      exec (.unrank n k r) s = .next (s.posted 3#3 0#32)) ∧
    (s.params.hasGen = true → s.genSt = .idle →
      exec .gnext s = .next (s.posted 4#3 0#32))

/-- 60_exceptions.md R200, R201: a performed command posts exactly one response, its status is one of the
six produced, and its data is 0 unless the status is OK. -/
def Obligations.EveryCommandPostsOneResponse : Prop :=
  ∀ (w : CmdWord) (s t : State), runWord w s = .next t →
    t.ifSt = .resp ∧ t.rspStatus.toNat ≤ 5 ∧ (t.rspStatus ≠ 0#3 → t.rspData = 0#32)

/-- 60_exceptions.md R206: the one status a command gets. -/
def Obligations.StatusFollowsThePriority : Prop :=
  ∀ (w : CmdWord) (s t : State), s.Inv → s.params.hasGen = true → runWord w s = .next t →
    t.rspStatus =
      if IllegalWord w then 1#3
      else if opField w ≤ 4 ∧ (32 < nField w ∨ nField w < kField w) then 2#3
      else if opField w = 2 ∧ BitmapError (nField w) (kField w) (argField w) then 3#3
      else if opField w = 3 ∧ Nat.choose (nField w) (kField w) ≤ (argField w).toNat then 3#3
      else if opField w = 5 ∧ s.genSt = .idle then 4#3
      else if opField w = 5 ∧ s.genCur = lastBitmap s.genN.toNat s.genK.toNat then 5#3
      else 0#3

/-- 60_exceptions.md R207: a command that answers an error writes no register except the interface's. -/
def Obligations.ErrorsArePrecise : Prop :=
  ∀ (w : CmdWord) (s t : State), runWord w s = .next t →
    1 ≤ t.rspStatus.toNat → t.rspStatus.toNat ≤ 4 → t = s.posted t.rspStatus 0#32

/-! ### The clock edge -/

/-- A step performs the decoded command: at the end of its wait, the step is `exec` of it in the state
with the edge gone by; so is the step after a word is placed (log entry 12). An illegal word is answered
ERR_ILLEGAL (30_encoding.md R95). -/
def Obligations.StepRunsTheDecodedCommand : Prop :=
  (∀ (s : State) (w : CmdWord) (i : Instr), s.ifSt = .busy w 0 → (currentPins s).rst = false →
    decode w = .ok i →
    i.WellFormed = true ∧
      step s = exec i { s with host := s.host.tail, edge := s.edge + 1 }) ∧
  (∀ (s : State) (w : CmdWord) (e : Illegal), s.ifSt = .busy w 0 →
    (currentPins s).rst = false → decode w = .error e →
    step s = .next ({ s with host := s.host.tail, edge := s.edge + 1 }.posted 1#3 0#32)) ∧
  (∀ (s : State) (nbits w : Nat) (i : Instr), decodeTableWord nbits w = some i →
    step (s.withFetchWord nbits w) =
      exec i { s with ifSt := .busy (tableWord nbits w) 0, edge := s.edge + 1 })

/-- 70_reset_and_hazards.md R230, R231, R232, R233: a reset edge, in any state. -/
def Obligations.ResetEdgeGivesTheResetState : Prop :=
  ∀ s : State, (currentPins s).rst = true →
    step s = .next
      { State.reset with
        params := s.params, btab := s.btab, host := s.host.tail, edge := s.edge + 1 } ∧
    cmdReady s = false ∧ acceptedWord s = none ∧ ∀ o, outstandingAfter o s = none

/-- 10_state.md R46: the values after reset. -/
def Obligations.ResetHoldsTheResetValues : Prop :=
  State.reset.genSt = .idle ∧ genPhaseCode State.reset.genSt = 0#2 ∧
  State.reset.genN = 0#6 ∧ State.reset.genK = 0#6 ∧ State.reset.genCur = 0#32 ∧
  State.reset.ifSt = .ready ∧ State.reset.rspStatus = 0#3 ∧ State.reset.rspData = 0#32 ∧
  rspValid State.reset = false ∧
  (∀ pins : List Pins, cmdReady { State.reset with host := pins } = !(pins.headD Pins.idle).rst) ∧
  ∀ i j : Nat, j ≤ i → i ≤ 32 →
    romRead State.reset.btab i j = some (BitVec.ofNat 32 (Nat.choose i j))

/-- 40_binomial_table.md R106; 10_state.md R34: no step changes BTAB or the block's parameters. -/
def Obligations.BtabAndParametersNeverChange : Prop :=
  (∀ s t : State, step s = .next t → t.btab = s.btab ∧ t.params = s.params) ∧
  State.reset.RomIntact ∧ ∀ host : List Pins, (powerUpState host).RomIntact

/-- 10_state.md R44: how IF_ST moves, and that no command is accepted in BUSY or RESP. That BUSY counts a
wait down edge by edge is the model's own choice: its length is a free value (log entry 1), held inside
IF_ST (log entry 2). -/
def Obligations.InterfacePhaseMovesAsRuled : Prop :=
  ∀ s : State, (currentPins s).rst = false →
    (s.ifSt = .ready → (currentPins s).cmdValid = true →
      ∃ wait, step s = .next
        { s with
          ifSt := .busy (currentPins s).cmdWord wait
          host := s.host.tail, edge := s.edge + 1 }) ∧
    (s.ifSt = .ready → (currentPins s).cmdValid = false →
      step s = .next { s with host := s.host.tail, edge := s.edge + 1 }) ∧
    (∀ w m, s.ifSt = .busy w (m + 1) →
      step s = .next { s with ifSt := .busy w m, host := s.host.tail, edge := s.edge + 1 }) ∧
    (∀ w t, s.ifSt = .busy w 0 → step s = .next t → t.ifSt = .resp) ∧
    (s.ifSt = .resp → (currentPins s).rspReady = true →
      step s = .next { s with ifSt := .ready, host := s.host.tail, edge := s.edge + 1 }) ∧
    (s.ifSt = .resp → (currentPins s).rspReady = false →
      step s = .next { s with host := s.host.tail, edge := s.edge + 1 }) ∧
    (s.ifSt ≠ .ready → cmdReady s = false ∧ acceptedWord s = none)

/-- 10_state.md R43: the output ports follow from the registers. Nothing is said of rsp_status and
rsp_data while rsp_valid = 0. -/
def Obligations.OutputPortsFollowTheRegisters : Prop :=
  ∀ s : State,
    (cmdReady s = true ↔ s.ifSt = .ready ∧ (currentPins s).rst = false) ∧
    (rspValid s = true ↔ s.ifSt = .resp) ∧
    (rspValid s = true → rspStatusPort s = s.rspStatus ∧ rspDataPort s = s.rspData)

/-- 70_reset_and_hazards.md R237: on an edge where no command transfers, cmd_valid and cmd_word have no
effect. -/
def Obligations.CommandPortIsSampledOnTransferOnly : Prop :=
  ∀ (s : State) (p p' : Pins) (rest : List Pins), p.rst = p'.rst → p.rspReady = p'.rspReady →
    acceptedWord { s with host := p :: rest } = none →
    acceptedWord { s with host := p' :: rest } = none →
    step { s with host := p :: rest } = step { s with host := p' :: rest }

/-- 70_reset_and_hazards.md R238: a response that is not taken stands unchanged, for any number of
edges. -/
def Obligations.ResponseStandsUntilTaken : Prop :=
  ∀ (m : Nat) (s : State), s.ifSt = .resp →
    (∀ p ∈ s.host.take m, p.rst = false ∧ p.rspReady = false) →
    clockEdges m s = .next { s with host := s.host.drop m, edge := s.edge + m } ∧
    rspStatusPort { s with host := s.host.drop m, edge := s.edge + m } = s.rspStatus ∧
    rspDataPort { s with host := s.host.drop m, edge := s.edge + m } = s.rspData

/-- 20_memory.md R65, R66; 30_encoding.md R95: an accepted command is performed, whole, when its wait is
over, whatever the free wait is, and its response is posted. -/
def Obligations.AcceptedCommandIsAnswered : Prop :=
  ∀ (s : State) (p : Pins) (rest : List Pins) (m : Nat), s.Inv → s.ifSt = .ready →
    s.host = p :: rest → p.rst = false → p.cmdValid = true →
    m = Config.latencyBeyondOne p.cmdWord s.edge →
    (∀ q ∈ rest.take (m + 1), q.rst = false) →
    ∃ t, clockEdges (m + 2) s = .next t ∧ t.ifSt = .resp ∧
      runWord p.cmdWord { s with host := rest.drop (m + 1), edge := s.edge + (m + 2) } = .next t

/-- 20_memory.md R70: with no reset, the triples delivered over any number of edges are those the history
of the accepted words gives, in order, all but at most the last command's. -/
def Obligations.ObservationIsTheHistory : Prop :=
  ∀ (edges : Nat) (s : State), s.ifSt = .ready → (∀ p ∈ s.host, p.rst = false) →
    (observe edges none s).2 <+: history (observe edges none s).1 s ∧
    (history (observe edges none s).1 s).length ≤ (observe edges none s).2.length + 1

/-- 70_reset_and_hazards.md R241; 20_memory.md R70: the record of a run is the whole history of its
command words from the reset state, and the generator registers they leave. That a run's record is read
from the host's schedule of ports is the model's own (log entries 3, 19 and 20). -/
def Obligations.RunRecordIsTheHistoryFromReset : Prop :=
  ∀ (edges : Nat) (s : State) (run : RunRecord), recordRun edges s = some run →
    (currentPins s).rst = true ∧
    run.triples =
      history (run.triples.map (·.word)) { State.reset with params := s.params, btab := s.btab } ∧
    ∃ t, runWords (run.triples.map (·.word))
        { State.reset with params := s.params, btab := s.btab } = .next t ∧
      run.final = generatorRegisters t

/-- 70_reset_and_hazards.md R241, R242: with BTAB intact, for every sequence of command words there is a
host that resets the block, issues just these, and takes the response to each. -/
def Obligations.EveryCommandSequenceHasARun : Prop :=
  ∀ (words : List CmdWord) (s : State), s.RomIntact →
    ∃ (host : List Pins) (edges : Nat) (run : RunRecord),
      recordRun edges { s with host := host } = some run ∧ run.triples.map (·.word) = words

/-! ### The invariant -/

/-- 10_state.md R46: the reset state satisfies the invariant. -/
def Obligations.ResetStateIsConsistent : Prop := State.reset.Inv

/-- 10_state.md R40; 40_binomial_table.md R106; 60_exceptions.md R200, R201: every step keeps the
invariant. -/
def Obligations.EveryStepKeepsConsistency : Prop :=
  ∀ s t : State, s.Inv → step s = .next t → t.Inv

/-- 30_encoding.md R95: `Exec` is total, so no step from a consistent state stops; and no word does. -/
def Obligations.ConsistentStatesNeverStop : Prop :=
  ∀ s : State, s.Inv → StepsOn s ∧ ∀ w : CmdWord, ∃ t, runWord w s = .next t
end

