-- ==== Sys2Proof/Laws/State.lean ====
section
/-! SUPPORT. One lemma per field of State per register update, so that no proof unfolds a record
update. -/

namespace Sys2Proof.Machine

@[simp] theorem raiseStatus_eq (status : Status) (s : State) :
    raiseStatus status s = respond status 0 s := rfl

@[simp] theorem respond_params (status : Status) (data : Word32) (s : State) :
    (respond status data s).params = s.params := rfl
@[simp] theorem respond_btab (status : Status) (data : Word32) (s : State) :
    (respond status data s).btab = s.btab := rfl
@[simp] theorem respond_genSt (status : Status) (data : Word32) (s : State) :
    (respond status data s).genSt = s.genSt := rfl
@[simp] theorem respond_genN (status : Status) (data : Word32) (s : State) :
    (respond status data s).genN = s.genN := rfl
@[simp] theorem respond_genK (status : Status) (data : Word32) (s : State) :
    (respond status data s).genK = s.genK := rfl
@[simp] theorem respond_genCur (status : Status) (data : Word32) (s : State) :
    (respond status data s).genCur = s.genCur := rfl
@[simp] theorem respond_ifSt (status : Status) (data : Word32) (s : State) :
    (respond status data s).ifSt = .resp := rfl
@[simp] theorem respond_rspStatus (status : Status) (data : Word32) (s : State) :
    (respond status data s).rspStatus = statusCode status := rfl
@[simp] theorem respond_rspData (status : Status) (data : Word32) (s : State) :
    (respond status data s).rspData = data := rfl
@[simp] theorem respond_host (status : Status) (data : Word32) (s : State) :
    (respond status data s).host = s.host := rfl
@[simp] theorem respond_edge (status : Status) (data : Word32) (s : State) :
    (respond status data s).edge = s.edge := rfl

@[simp] theorem startSequence_params (n k : Nat) (s : State) :
    (startSequence n k s).params = s.params := rfl
@[simp] theorem startSequence_btab (n k : Nat) (s : State) :
    (startSequence n k s).btab = s.btab := rfl
@[simp] theorem startSequence_genSt (n k : Nat) (s : State) :
    (startSequence n k s).genSt = .active := rfl
@[simp] theorem startSequence_genN (n k : Nat) (s : State) :
    (startSequence n k s).genN = BitVec.ofNat 6 n := rfl
@[simp] theorem startSequence_genK (n k : Nat) (s : State) :
    (startSequence n k s).genK = BitVec.ofNat 6 k := rfl
@[simp] theorem startSequence_genCur (n k : Nat) (s : State) :
    (startSequence n k s).genCur = firstBitmap k := rfl
@[simp] theorem startSequence_ifSt (n k : Nat) (s : State) :
    (startSequence n k s).ifSt = s.ifSt := rfl
@[simp] theorem startSequence_rspStatus (n k : Nat) (s : State) :
    (startSequence n k s).rspStatus = s.rspStatus := rfl
@[simp] theorem startSequence_rspData (n k : Nat) (s : State) :
    (startSequence n k s).rspData = s.rspData := rfl
@[simp] theorem startSequence_host (n k : Nat) (s : State) :
    (startSequence n k s).host = s.host := rfl
@[simp] theorem startSequence_edge (n k : Nat) (s : State) :
    (startSequence n k s).edge = s.edge := rfl

@[simp] theorem advanceSequence_params (v : Word32) (s : State) :
    (advanceSequence v s).params = s.params := rfl
@[simp] theorem advanceSequence_btab (v : Word32) (s : State) :
    (advanceSequence v s).btab = s.btab := rfl
@[simp] theorem advanceSequence_genSt (v : Word32) (s : State) :
    (advanceSequence v s).genSt = s.genSt := rfl
@[simp] theorem advanceSequence_genN (v : Word32) (s : State) :
    (advanceSequence v s).genN = s.genN := rfl
@[simp] theorem advanceSequence_genK (v : Word32) (s : State) :
    (advanceSequence v s).genK = s.genK := rfl
@[simp] theorem advanceSequence_genCur (v : Word32) (s : State) :
    (advanceSequence v s).genCur = v := rfl
@[simp] theorem advanceSequence_ifSt (v : Word32) (s : State) :
    (advanceSequence v s).ifSt = s.ifSt := rfl
@[simp] theorem advanceSequence_rspStatus (v : Word32) (s : State) :
    (advanceSequence v s).rspStatus = s.rspStatus := rfl
@[simp] theorem advanceSequence_rspData (v : Word32) (s : State) :
    (advanceSequence v s).rspData = s.rspData := rfl
@[simp] theorem advanceSequence_host (v : Word32) (s : State) :
    (advanceSequence v s).host = s.host := rfl
@[simp] theorem advanceSequence_edge (v : Word32) (s : State) :
    (advanceSequence v s).edge = s.edge := rfl

@[simp] theorem finishSequence_params (s : State) :
    (finishSequence s).params = s.params := rfl
@[simp] theorem finishSequence_btab (s : State) :
    (finishSequence s).btab = s.btab := rfl
@[simp] theorem finishSequence_genSt (s : State) :
    (finishSequence s).genSt = .done := rfl
@[simp] theorem finishSequence_genN (s : State) :
    (finishSequence s).genN = s.genN := rfl
@[simp] theorem finishSequence_genK (s : State) :
    (finishSequence s).genK = s.genK := rfl
@[simp] theorem finishSequence_genCur (s : State) :
    (finishSequence s).genCur = s.genCur := rfl
@[simp] theorem finishSequence_ifSt (s : State) :
    (finishSequence s).ifSt = s.ifSt := rfl
@[simp] theorem finishSequence_rspStatus (s : State) :
    (finishSequence s).rspStatus = s.rspStatus := rfl
@[simp] theorem finishSequence_rspData (s : State) :
    (finishSequence s).rspData = s.rspData := rfl
@[simp] theorem finishSequence_host (s : State) :
    (finishSequence s).host = s.host := rfl
@[simp] theorem finishSequence_edge (s : State) :
    (finishSequence s).edge = s.edge := rfl

@[simp] theorem passEdge_params (s : State) :
    (passEdge s).params = s.params := rfl
@[simp] theorem passEdge_btab (s : State) :
    (passEdge s).btab = s.btab := rfl
@[simp] theorem passEdge_genSt (s : State) :
    (passEdge s).genSt = s.genSt := rfl
@[simp] theorem passEdge_genN (s : State) :
    (passEdge s).genN = s.genN := rfl
@[simp] theorem passEdge_genK (s : State) :
    (passEdge s).genK = s.genK := rfl
@[simp] theorem passEdge_genCur (s : State) :
    (passEdge s).genCur = s.genCur := rfl
@[simp] theorem passEdge_ifSt (s : State) :
    (passEdge s).ifSt = s.ifSt := rfl
@[simp] theorem passEdge_rspStatus (s : State) :
    (passEdge s).rspStatus = s.rspStatus := rfl
@[simp] theorem passEdge_rspData (s : State) :
    (passEdge s).rspData = s.rspData := rfl
@[simp] theorem passEdge_host (s : State) :
    (passEdge s).host = s.host.tail := rfl
@[simp] theorem passEdge_edge (s : State) :
    (passEdge s).edge = s.edge + 1 := rfl

@[simp] theorem acceptCommand_params (w : CmdWord) (s : State) :
    (acceptCommand w s).params = s.params := rfl
@[simp] theorem acceptCommand_btab (w : CmdWord) (s : State) :
    (acceptCommand w s).btab = s.btab := rfl
@[simp] theorem acceptCommand_genSt (w : CmdWord) (s : State) :
    (acceptCommand w s).genSt = s.genSt := rfl
@[simp] theorem acceptCommand_genN (w : CmdWord) (s : State) :
    (acceptCommand w s).genN = s.genN := rfl
@[simp] theorem acceptCommand_genK (w : CmdWord) (s : State) :
    (acceptCommand w s).genK = s.genK := rfl
@[simp] theorem acceptCommand_genCur (w : CmdWord) (s : State) :
    (acceptCommand w s).genCur = s.genCur := rfl
@[simp] theorem acceptCommand_ifSt (w : CmdWord) (s : State) :
    (acceptCommand w s).ifSt = .busy w (Config.latencyBeyondOne w s.edge) := rfl
@[simp] theorem acceptCommand_rspStatus (w : CmdWord) (s : State) :
    (acceptCommand w s).rspStatus = s.rspStatus := rfl
@[simp] theorem acceptCommand_rspData (w : CmdWord) (s : State) :
    (acceptCommand w s).rspData = s.rspData := rfl
@[simp] theorem acceptCommand_host (w : CmdWord) (s : State) :
    (acceptCommand w s).host = s.host := rfl
@[simp] theorem acceptCommand_edge (w : CmdWord) (s : State) :
    (acceptCommand w s).edge = s.edge := rfl

@[simp] theorem releaseResponse_params (s : State) :
    (releaseResponse s).params = s.params := rfl
@[simp] theorem releaseResponse_btab (s : State) :
    (releaseResponse s).btab = s.btab := rfl
@[simp] theorem releaseResponse_genSt (s : State) :
    (releaseResponse s).genSt = s.genSt := rfl
@[simp] theorem releaseResponse_genN (s : State) :
    (releaseResponse s).genN = s.genN := rfl
@[simp] theorem releaseResponse_genK (s : State) :
    (releaseResponse s).genK = s.genK := rfl
@[simp] theorem releaseResponse_genCur (s : State) :
    (releaseResponse s).genCur = s.genCur := rfl
@[simp] theorem releaseResponse_ifSt (s : State) :
    (releaseResponse s).ifSt = .ready := rfl
@[simp] theorem releaseResponse_rspStatus (s : State) :
    (releaseResponse s).rspStatus = s.rspStatus := rfl
@[simp] theorem releaseResponse_rspData (s : State) :
    (releaseResponse s).rspData = s.rspData := rfl
@[simp] theorem releaseResponse_host (s : State) :
    (releaseResponse s).host = s.host := rfl
@[simp] theorem releaseResponse_edge (s : State) :
    (releaseResponse s).edge = s.edge := rfl

@[simp] theorem resetRegisters_params (s : State) :
    (resetRegisters s).params = s.params := rfl
@[simp] theorem resetRegisters_btab (s : State) :
    (resetRegisters s).btab = s.btab := rfl
@[simp] theorem resetRegisters_genSt (s : State) :
    (resetRegisters s).genSt = .idle := rfl
@[simp] theorem resetRegisters_genN (s : State) :
    (resetRegisters s).genN = 0 := rfl
@[simp] theorem resetRegisters_genK (s : State) :
    (resetRegisters s).genK = 0 := rfl
@[simp] theorem resetRegisters_genCur (s : State) :
    (resetRegisters s).genCur = 0 := rfl
@[simp] theorem resetRegisters_ifSt (s : State) :
    (resetRegisters s).ifSt = .ready := rfl
@[simp] theorem resetRegisters_rspStatus (s : State) :
    (resetRegisters s).rspStatus = 0 := rfl
@[simp] theorem resetRegisters_rspData (s : State) :
    (resetRegisters s).rspData = 0 := rfl
@[simp] theorem resetRegisters_host (s : State) :
    (resetRegisters s).host = s.host := rfl
@[simp] theorem resetRegisters_edge (s : State) :
    (resetRegisters s).edge = s.edge := rfl

@[simp] theorem commandInProgress_params (w : CmdWord) (s : State) :
    (commandInProgress w s).params = s.params := rfl
@[simp] theorem commandInProgress_btab (w : CmdWord) (s : State) :
    (commandInProgress w s).btab = s.btab := rfl
@[simp] theorem commandInProgress_genSt (w : CmdWord) (s : State) :
    (commandInProgress w s).genSt = s.genSt := rfl
@[simp] theorem commandInProgress_genN (w : CmdWord) (s : State) :
    (commandInProgress w s).genN = s.genN := rfl
@[simp] theorem commandInProgress_genK (w : CmdWord) (s : State) :
    (commandInProgress w s).genK = s.genK := rfl
@[simp] theorem commandInProgress_genCur (w : CmdWord) (s : State) :
    (commandInProgress w s).genCur = s.genCur := rfl
@[simp] theorem commandInProgress_ifSt (w : CmdWord) (s : State) :
    (commandInProgress w s).ifSt = .busy w 0 := rfl
@[simp] theorem commandInProgress_rspStatus (w : CmdWord) (s : State) :
    (commandInProgress w s).rspStatus = s.rspStatus := rfl
@[simp] theorem commandInProgress_rspData (w : CmdWord) (s : State) :
    (commandInProgress w s).rspData = s.rspData := rfl
@[simp] theorem commandInProgress_host (w : CmdWord) (s : State) :
    (commandInProgress w s).host = Pins.idle :: s.host := rfl
@[simp] theorem commandInProgress_edge (w : CmdWord) (s : State) :
    (commandInProgress w s).edge = s.edge := rfl

@[simp] theorem currentPins_passEdge (s : State) :
    currentPins (passEdge s) = s.host.tail.headD Pins.idle := rfl
@[simp] theorem currentPins_commandInProgress (w : CmdWord) (s : State) :
    currentPins (commandInProgress w s) = Pins.idle := rfl
@[simp] theorem idle_rst : Pins.idle.rst = false := rfl
@[simp] theorem idle_cmdValid : Pins.idle.cmdValid = false := rfl
@[simp] theorem idle_rspReady : Pins.idle.rspReady = false := rfl

end Sys2Proof.Machine
end

