-- ==== Sys2Proof/Laws/Ops.lean ====
section
/-! SUPPORT. What each shared operation can do, said once: reading BTAB, ending a command, and the bit
operators. -/

namespace Sys2Proof.Machine

/-- RomRead answers an entry exactly at an address of the triangle whose entry the table holds. -/
theorem romRead_eq_some_iff (btab : List (List Word32)) (i j : Nat) (v : Word32) :
    romRead btab i j = some v ↔
      (j ≤ i ∧ i ≤ Config.maxBits) ∧ ∃ row, btab[i]? = some row ∧ row[j]? = some v := by
  unfold romRead
  split <;> simp_all [Option.bind_eq_some_iff]

/-- RomRead answers nothing outside the triangle. -/
theorem romRead_outside (btab : List (List Word32)) (i j : Nat)
    (h : ¬(j ≤ i ∧ i ≤ Config.maxBits)) : romRead btab i j = none := if_neg h

/-- On a table of BTAB's form, every address of the triangle holds an entry. -/
theorem romRead_isSome_of_wf (btab : List (List Word32)) (i j : Nat) (hwf : Memory.wf btab = true)
    (hj : j ≤ i) (hi : i ≤ Config.maxBits) : (romRead btab i j).isSome := by
  have hlen := beq_iff_eq.mp hwf
  have hrow : (btab.map List.length)[i]? = some (i + 1) := by
    rw [hlen, List.getElem?_map, List.getElem?_range (by omega)]
    rfl
  rw [List.getElem?_map] at hrow
  obtain ⟨row, hr, hrl⟩ := Option.map_eq_some_iff.mp hrow
  have : row[j]? = some row[j] := List.getElem?_eq_getElem (by omega)
  exact Option.isSome_iff_exists.mpr
    ⟨_, (romRead_eq_some_iff ..).mpr ⟨⟨hj, hi⟩, row, hr, this⟩⟩

/-- `answer` gives a next state exactly where there is a result: it is posted with status OK. -/
theorem answer_eq_next_iff (result : Option Word32) (s t : State) :
    answer result s = .next t ↔ ∃ data, result = some data ∧ t = respond .ok data s := by
  cases result <;> simp [answer, eq_comm]

/-- `answer` never refuses, and faults exactly where there is no result. -/
theorem answer_eq_fault_iff (result : Option Word32) (s : State) (r : Fault) :
    answer result s = .fault r ↔ result = none := by
  cases result <;> cases r <;> simp [answer]

/-- A later response overwrites an earlier one. -/
@[simp] theorem respond_respond (a b : Status) (x y : Word32) (s : State) :
    respond a x (respond b y s) = respond a x s := rfl

@[simp] theorem bitsBelow_zero (v : Word32) : bitsBelow v 0 = 0 := rfl

theorem bitsBelow_succ (v : Word32) (m : Nat) :
    bitsBelow v (m + 1) = bitsBelow v m + (v.getLsbD m).toNat := rfl

/-- At most m of m bits are set. -/
theorem bitsBelow_le (v : Word32) (m : Nat) : bitsBelow v m ≤ m := by
  induction m with
  | zero => rfl
  | succ m ih => rw [bitsBelow_succ]; have := Bool.toNat_le (v.getLsbD m); omega

/-- What `setBit` leaves in each position. -/
theorem getLsbD_setBit (v : Word32) (pos i : Nat) (h : pos < 32) :
    (setBit v pos).getLsbD i = (v.getLsbD i || decide (i = pos)) := by
  unfold setBit
  rw [BitVec.getLsbD_or, BitVec.getLsbD_shiftLeft]
  by_cases hi : i = pos
  · subst hi; simp [h]
  · rcases Nat.lt_or_gt_of_ne hi with hlt | hgt
    · simp [hi, hlt]
    · simp [hi, BitVec.getLsbD_one]; omega

end Sys2Proof.Machine
end

