-- ==== Sys2Proof/Laws/Step.lean ====
section
/-! SUPPORT. What each meaning and each step can do, said once; later proofs cite these and unfold no
meaning. -/

namespace Sys2Proof.Machine

/-- What BINOM can do when it goes on. -/
theorem execBinom_cases {i j : Nat} {s t : State} (h : execBinom i j s = .next t) :
    (ConfigError i j ∧ t = raiseStatus .errConfig s) ∨
      (¬ConfigError i j ∧ ∃ v, romRead s.btab i j = some v ∧ t = respond .ok v s) := by
  unfold execBinom at h
  split at h
  · exact .inl ⟨‹_›, by cases h; rfl⟩
  · exact .inr ⟨‹_›, (answer_eq_next_iff ..).mp h⟩

/-- What RANK can do when it goes on. -/
theorem execRank_cases {n k : Nat} {b : Word32} {s t : State} (h : execRank n k b s = .next t) :
    (ConfigError n k ∧ t = raiseStatus .errConfig s) ∨
      (¬ConfigError n k ∧ BitmapError n k b ∧ t = raiseStatus .errInput s) ∨
      (¬ConfigError n k ∧ ¬BitmapError n k b ∧
        ∃ total, rankWalk s.btab b n (n - k) 0 = some total ∧
          t = respond .ok (BitVec.ofNat 32 total) s) := by
  unfold execRank at h
  split at h
  · exact .inl ⟨‹_›, by cases h; rfl⟩
  · split at h
    · exact .inr (.inl ⟨‹_›, ‹_›, by cases h; rfl⟩)
    · obtain ⟨v, hv, ht⟩ := (answer_eq_next_iff ..).mp h
      obtain ⟨total, hw, rfl⟩ := Option.map_eq_some_iff.mp hv
      exact .inr (.inr ⟨‹_›, ‹_›, total, hw, ht⟩)

/-- What UNRANK can do when it goes on. -/
theorem execUnrank_cases {n k r : Nat} {s t : State} (h : execUnrank n k r s = .next t) :
    (ConfigError n k ∧ t = raiseStatus .errConfig s) ∨
      (¬ConfigError n k ∧ ∃ count, romRead s.btab n k = some count ∧
        ((count.toNat ≤ r ∧ t = raiseStatus .errInput s) ∨
          (r < count.toNat ∧ ∃ b, unrankWalk s.btab n (n - k) r 0 = some b ∧
            t = respond .ok b s))) := by
  unfold execUnrank at h
  split at h
  · exact .inl ⟨‹_›, by cases h; rfl⟩
  · split at h
    · cases h
    · rename_i count hc
      refine .inr ⟨‹_›, count, hc, ?_⟩
      split at h
      · exact .inl ⟨‹_›, by cases h; rfl⟩
      · exact .inr ⟨by omega, (answer_eq_next_iff ..).mp h⟩

/-- What GSTART does: it always goes on. -/
theorem execGstart_cases {n k : Nat} {s t : State} (h : execGstart n k s = .next t) :
    (s.params.hasGen = false ∧ t = raiseStatus .errIllegal s) ∨
      (s.params.hasGen = true ∧ ConfigError n k ∧ t = raiseStatus .errConfig s) ∨
      (s.params.hasGen = true ∧ ¬ConfigError n k ∧
        t = respond .ok (firstBitmap k) (startSequence n k s)) := by
  unfold execGstart at h
  split at h
  · split at h
    · exact .inr (.inl ⟨‹_›, ‹_›, by cases h; rfl⟩)
    · exact .inr (.inr ⟨‹_›, ‹_›, by cases h; rfl⟩)
  · exact .inl ⟨Bool.eq_false_of_not_eq_true ‹_›, by cases h; rfl⟩

/-- What GNEXT does: it always goes on. -/
theorem execGnext_cases {s t : State} (h : execGnext s = .next t) :
    (s.params.hasGen = false ∧ t = raiseStatus .errIllegal s) ∨
      (s.params.hasGen = true ∧ s.genSt = .idle ∧ t = raiseStatus .errState s) ∨
      (s.params.hasGen = true ∧ s.genSt = .done ∧ t = respond .sequenceEnd 0 s) ∨
      (s.params.hasGen = true ∧ s.genSt = .active ∧
        nextElement s.genN s.genK s.genCur = none ∧
          t = respond .sequenceEnd 0 (finishSequence s)) ∨
      (s.params.hasGen = true ∧ s.genSt = .active ∧
        ∃ v, nextElement s.genN s.genK s.genCur = some v ∧
          t = respond .ok v (advanceSequence v s)) := by
  unfold execGnext at h
  split at h
  · rename_i hg
    split at h
    · rename_i hp; exact .inr (.inl ⟨hg, hp, by cases h; rfl⟩)
    · rename_i hp; exact .inr (.inr (.inl ⟨hg, hp, by cases h; rfl⟩))
    · rename_i hp
      split at h
      · rename_i he; exact .inr (.inr (.inr (.inl ⟨hg, hp, he, by cases h; rfl⟩)))
      · rename_i v he; exact .inr (.inr (.inr (.inr ⟨hg, hp, v, he, by cases h; rfl⟩)))
  · exact .inl ⟨Bool.eq_false_of_not_eq_true ‹_›, by cases h; rfl⟩

/-- What performing a word can do when it goes on. -/
theorem runWord_cases {w : CmdWord} {s t : State} (h : runWord w s = .next t) :
    (∃ i, decode w = .ok i ∧ exec i s = .next t) ∨
      (∃ e, decode w = .error e ∧ t = raiseStatus .errIllegal s) := by
  unfold runWord at h
  split at h
  · rename_i i hi; exact .inl ⟨i, hi, h⟩
  · rename_i e he; exact .inr ⟨e, he, by cases h; rfl⟩

/-- Everything a step can do when it goes on. -/
theorem step_cases {s t : State} (h : step s = .next t) :
    ((currentPins s).rst = true ∧ t = resetRegisters (passEdge s)) ∨
      ((currentPins s).rst = false ∧
        ((s.ifSt = .ready ∧ (currentPins s).cmdValid = true ∧
            t = passEdge (acceptCommand (currentPins s).cmdWord s)) ∨
          (s.ifSt = .ready ∧ (currentPins s).cmdValid = false ∧ t = passEdge s) ∨
          (∃ w, s.ifSt = .busy w 0 ∧ runWord w (passEdge s) = .next t) ∨
          (∃ w m, s.ifSt = .busy w (m + 1) ∧ t = passEdge { s with ifSt := .busy w m }) ∨
          (s.ifSt = .resp ∧ (currentPins s).rspReady = true ∧
            t = passEdge (releaseResponse s)) ∨
          (s.ifSt = .resp ∧ (currentPins s).rspReady = false ∧ t = passEdge s))) := by
  unfold step clockEdge at h
  split at h
  · exact .inl ⟨‹_›, by cases h; rfl⟩
  · refine .inr ⟨Bool.eq_false_of_not_eq_true ‹_›, ?_⟩
    split at h
    · rename_i hp
      split at h
      · exact .inl ⟨hp, ‹_›, by cases h; rfl⟩
      · exact .inr (.inl ⟨hp, Bool.eq_false_of_not_eq_true ‹_›, by cases h; rfl⟩)
    · rename_i w hp; exact .inr (.inr (.inl ⟨w, hp, h⟩))
    · rename_i w m hp; exact .inr (.inr (.inr (.inl ⟨w, m, hp, by cases h; rfl⟩)))
    · rename_i hp
      split at h
      · exact .inr (.inr (.inr (.inr (.inl ⟨hp, ‹_›, by cases h; rfl⟩))))
      · exact .inr (.inr (.inr (.inr (.inr ⟨hp, Bool.eq_false_of_not_eq_true ‹_›, by cases h; rfl⟩))))

end Sys2Proof.Machine
end

