-- ==== Sys2Proof/Laws/Memory.lean ====
section
/-! SUPPORT. BTAB's form: the reset state has it, and every register operation keeps it, since none
writes BTAB (00_scope.md R14). -/

namespace Sys2Proof.Machine

theorem reset_wf : Memory.wf State.reset.btab = true := by decide +kernel

/-- Every operation on the registers leaves BTAB, and with it BTAB's form. -/
theorem operations_keep_wf (s : State) (status : Status) (data v : Word32) (n k : Nat)
    (w : CmdWord) (h : Memory.wf s.btab = true) :
    Memory.wf (respond status data s).btab = true ∧
      Memory.wf (startSequence n k s).btab = true ∧
      Memory.wf (advanceSequence v s).btab = true ∧
      Memory.wf (finishSequence s).btab = true ∧
      Memory.wf (passEdge s).btab = true ∧
      Memory.wf (acceptCommand w s).btab = true ∧
      Memory.wf (releaseResponse s).btab = true ∧
      Memory.wf (resetRegisters s).btab = true ∧
      Memory.wf (commandInProgress w s).btab = true := by
  simp [h]

end Sys2Proof.Machine
end

