-- ==== Sys2Proof/Laws/PerInstr.lean ====
section
/-! SUPPORT. Statements made of every command as syntax, one lemma per constructor. -/

namespace Sys2Proof.Laws.EncodesItsRow

/-- The word an assembler writes for a well-formed command matches the command's row of the opcode table
(30_encoding.md R84): its opcode is in place and its reserved fields are 0. -/
def Statement (i : Instr) : Prop :=
  i.WellFormed = true → encode i &&& opcodeMask = opcodeMatch i

/-- Field values that fit leave the opcode and the reserved fields as the format has them. -/
theorem encodeFields_masked (op n k arg : Nat) (hn : n < 2 ^ 6) (hk : k < 2 ^ 6) (hop : op < 2 ^ 4) :
    encodeFields op n k arg &&& opcodeMask = BitVec.ofNat 64 op := by
  have bit_high : ∀ x m j : Nat, x < 2 ^ m → m ≤ j → x.testBit j = false := fun x m j hx hj =>
    Nat.testBit_lt_two_pow (lt_of_lt_of_le hx (Nat.pow_le_pow_right (by norm_num) hj))
  apply BitVec.eq_of_getLsbD_eq
  intro i hi
  simp only [encodeFields, BitVec.getLsbD_and, BitVec.getLsbD_or, BitVec.getLsbD_shiftLeft,
    BitVec.getLsbD_ofNat]
  have hmask : opcodeMask.getLsbD i =
      (decide (i < 8) || decide (14 ≤ i ∧ i < 16) || decide (22 ≤ i ∧ i < 32)) := by
    have : ∀ i < 64, opcodeMask.getLsbD i =
      (decide (i < 8) || decide (14 ≤ i ∧ i < 16) || decide (22 ≤ i ∧ i < 32)) := by decide
    exact this i hi
  rw [hmask]
  by_cases h8 : i < 8
  · simp [h8, hi, show i < 16 by omega, show i < 32 by omega]
  · have h1 := bit_high op 4 i hop (by omega)
    by_cases h14 : 14 ≤ i ∧ i < 16
    · simp [h8, h1, h14, show i < 32 by omega, bit_high n 6 (i - 8) hn (by omega)]
    · by_cases h22 : 22 ≤ i ∧ i < 32
      · simp [h8, h1, h22, bit_high n 6 (i - 8) hn (by omega),
          bit_high k 6 (i - 16) hk (by omega)]
      · simp [h8, h1, h14, h22]

theorem binom (i j : Nat) : Statement (.binom i j) := fun h => by
  have h := of_decide_eq_true h
  exact encodeFields_masked 1 i j 0 h.1 h.2 (by norm_num)

theorem rank (n k : Nat) (b : Word32) : Statement (.rank n k b) := fun h => by
  have h := of_decide_eq_true h
  exact encodeFields_masked 2 n k b.toNat h.1 h.2 (by norm_num)

theorem unrank (n k r : Nat) : Statement (.unrank n k r) := fun h => by
  have h := of_decide_eq_true h
  exact encodeFields_masked 3 n k r h.1.1 h.1.2 (by norm_num)

theorem gstart (n k : Nat) : Statement (.gstart n k) := fun h => by
  have h := of_decide_eq_true h
  exact encodeFields_masked 4 n k 0 h.1 h.2 (by norm_num)

theorem gnext : Statement .gnext := fun _ =>
  encodeFields_masked 5 0 0 0 (by norm_num) (by norm_num) (by norm_num)

end Sys2Proof.Laws.EncodesItsRow
end

