-- ==== Sys2Proof/Laws/Run.lean ====
section
/-! SUPPORT. The small lemmas of a run's record, which let a proof follow a run without unfolding it. -/

namespace Sys2Proof.Machine

/-- At its end, a run has delivered all it delivers. -/
theorem recordFrom_ended (edges : Nat) (o : Option CmdWord) (s : State) (h : runEnded s = true) :
    recordFrom edges o s = some ⟨[], generatorRegisters s⟩ := by
  cases edges <;> simp [recordFrom, h]

/-- A run that is not at its end goes on by a step, and delivers what that edge delivers first. -/
theorem recordFrom_step (m : Nat) (o : Option CmdWord) (s t : State) (hend : runEnded s = false)
    (hrst : (currentPins s).rst = false) (hstep : step s = .next t) :
    recordFrom (m + 1) o s =
      (recordFrom m (outstandingAfter o s) t).map fun r =>
        { r with triples := delivered o s ++ r.triples } := by
  simp [recordFrom, hend, hrst, hstep]

/-- All a record that goes on can be: the edge is no reset, and the rest of the run has a record too. -/
theorem recordFrom_cases {m : Nat} {o : Option CmdWord} {s : State} {run : RunRecord}
    (h : recordFrom (m + 1) o s = some run) :
    (runEnded s = true ∧ run = ⟨[], generatorRegisters s⟩) ∨
      (runEnded s = false ∧ (currentPins s).rst = false ∧
        ∃ t rest, step s = .next t ∧ recordFrom m (outstandingAfter o s) t = some rest ∧
          run = { rest with triples := delivered o s ++ rest.triples }) := by
  unfold recordFrom at h
  split at h
  · exact .inl ⟨‹_›, by cases h; rfl⟩
  · split at h
    · cases h
    · split at h
      · rename_i t ht
        obtain ⟨rest, hr, rfl⟩ := Option.map_eq_some_iff.mp h
        exact .inr ⟨Bool.eq_false_of_not_eq_true ‹_›, Bool.eq_false_of_not_eq_true ‹_›,
          t, rest, ht, hr, rfl⟩
      · cases h

/-- All a run's first edge can be: a reset, held on or followed by the commands. -/
theorem recordRun_cases {m : Nat} {s : State} {run : RunRecord}
    (h : recordRun (m + 1) s = some run) :
    (currentPins s).rst = true ∧
      (((currentPins (passEdge s)).rst = true ∧
          recordRun m (resetRegisters (passEdge s)) = some run) ∨
        ((currentPins (passEdge s)).rst = false ∧
          recordFrom m none (resetRegisters (passEdge s)) = some run)) := by
  unfold recordRun at h
  split at h
  · rename_i hr
    have hs : step s = .next (resetRegisters (passEdge s)) := if_pos hr
    rw [hs] at h
    refine ⟨hr, ?_⟩
    dsimp only at h
    split at h
    · exact .inl ⟨‹_›, h⟩
    · exact .inr ⟨Bool.eq_false_of_not_eq_true ‹_›, h⟩
  · cases h

/-- A run is not at its end while a command is in progress or a response stands. -/
theorem runEnded_of_not_ready {s : State} (h : s.ifSt ≠ .ready) : runEnded s = false := by
  simp [runEnded, h]

/-- An idle host waits out the wait of a command in progress. -/
theorem recordFrom_wait (w : CmdWord) (edges wait : Nat) (rest : List Pins) :
    ∀ s : State, s.ifSt = .busy w wait → s.host = List.replicate wait Pins.idle ++ rest →
      recordFrom (wait + edges) (some w) s =
        recordFrom edges (some w)
          { s with ifSt := .busy w 0, host := rest, edge := s.edge + wait } := by
  induction wait with
  | zero =>
    intro s hp hh
    obtain ⟨⟩ := s
    simp_all
  | succ m ih =>
    intro s hp hh
    have hpins : currentPins s = Pins.idle := by
      simp [currentPins, hh, List.replicate_succ]
    have hstep : step s = .next (passEdge { s with ifSt := .busy w m }) := by
      simp [step, clockEdge, hpins, hp]
    have hrest : (passEdge { s with ifSt := .busy w m }).host =
        List.replicate m Pins.idle ++ rest := by
      simp [hh, List.replicate_succ]
    have hgo := recordFrom_step (m + edges) (some w) s _
      (runEnded_of_not_ready (by simp [hp])) (by simp [hpins]) hstep
    have hquiet : responseTaken s = false ∧ acceptedWord s = none := by
      simp [responseTaken, acceptedWord, rspValid, cmdReady, hp]
    have hout : outstandingAfter (some w) s = some w := by
      simp [outstandingAfter, hpins, hquiet]
    have hdel : delivered (some w) s = [] := by simp [delivered, hquiet]
    rw [show m + 1 + edges = m + edges + 1 by omega, hgo, hout, hdel, ih _ rfl hrest]
    simp [Nat.add_assoc, Nat.add_comm 1 m]

end Sys2Proof.Machine
end

