-- ==== Sys2Proof/Tests/Slice0.lean ====
section
/-! SUPPORT. Small checks of the model, with expected values from the spec, and for each statement with
hypotheses a concrete case that meets them. -/

namespace Sys2Proof.Tests

open Sys2Proof Sys2Proof.Machine

/-! ### Helpers -/

/-- The reset state with the generator registers set. -/
def gen (st : GenPhase) (n k : Field6) (cur : Word32) : State :=
  { State.reset with genSt := st, genN := n, genK := k, genCur := cur }

/-- A block built without a generator, after reset. -/
def noGen : State := { State.reset with params := { hasGen := false } }

/-- The reset state in an interface phase, with the host's ports scheduled. -/
def at_ (p : IfPhase) (host : List Pins) : State := { State.reset with ifSt := p, host := host }

/-- The host offers a word and is ready to take a response. -/
def offer (w : CmdWord) : Pins := { rst := false, cmdValid := true, cmdWord := w, rspReady := true }

/-- The host offers nothing and takes a response. -/
def offerNothing : Pins := { rst := false, cmdValid := false, cmdWord := 0, rspReady := true }

/-- The host asserts reset, offering a word and taking a response at once. -/
def resetPins : Pins := { rst := true, cmdValid := true, cmdWord := 5, rspReady := true }

/-- Status and data of the response to a word placed as the next command. -/
def responseTo (s : State) (w : Nat) : Option (BitVec 3 × Word32) :=
  match step (s.withFetchWord 64 w) with
  | .next t => some (t.rspStatus, t.rspData)
  | _ => none

/-- The generator registers after a word placed as the next command. -/
def generatorAfter (s : State) (w : Nat) : Option (GenPhase × Field6 × Field6 × Word32) :=
  match step (s.withFetchWord 64 w) with
  | .next t => some (t.genSt, t.genN, t.genK, t.genCur)
  | _ => none

/-! ### Well-formedness: a term each check refuses, and the largest it accepts (30_encoding.md R90) -/

theorem test_wf_binom_row : (Instr.binom 64 0).WellFormed = false := by decide
theorem test_wf_binom_column : (Instr.binom 0 64).WellFormed = false := by decide
theorem test_wf_rank_n : (Instr.rank 64 0 0).WellFormed = false := by decide
theorem test_wf_rank_k : (Instr.rank 0 64 0).WellFormed = false := by decide
theorem test_wf_unrank_n : (Instr.unrank 64 0 0).WellFormed = false := by decide
theorem test_wf_unrank_k : (Instr.unrank 0 64 0).WellFormed = false := by decide
theorem test_wf_unrank_arg : (Instr.unrank 0 0 (2 ^ 32)).WellFormed = false := by decide
theorem test_wf_gstart_n : (Instr.gstart 64 0).WellFormed = false := by decide
theorem test_wf_gstart_k : (Instr.gstart 0 64).WellFormed = false := by decide
theorem test_wf_largest : (Instr.unrank 63 63 (2 ^ 32 - 1)).WellFormed = true := by decide

/-! ### Decoding: words written out from the fields of 30_encoding.md R80 and R83 -/

/-- aaaa…(32 bits) 0000000000 kkkkkk 00 nnnnnn 0000 oooo, K = 010000, N = 100000, OP = 0001. -/
theorem test_decode_binom :
    decode 0b0000000000000000000000000000000000000000000100000010000000000001
      = .ok (.binom 32 16) := by decide
/-- ARG = 101111, K = 000101, N = 001000, OP = 0010. -/
theorem test_decode_rank :
    decode 0b0000000000000000000000000010111100000000000001010000100000000010
      = .ok (.rank 8 5 47) := by decide
/-- ARG = 10, K = 000101, N = 001000, OP = 0011. -/
theorem test_decode_unrank :
    decode 0b0000000000000000000000000000001000000000000001010000100000000011
      = .ok (.unrank 8 5 2) := by decide
/-- ARG all ones and ignored, K = 000010, N = 000100, OP = 0100. -/
theorem test_decode_gstart :
    decode 0b1111111111111111111111111111111100000000000000100000010000000100
      = .ok (.gstart 4 2) := by decide
/-- V-D8: N, K and ARG all ones and ignored, OP = 0101. -/
theorem test_decode_gnext :
    decode 0b1111111111111111111111111111111100000000001111110011111100000101
      = .ok .gnext := by decide
/-- V-D1, V-D2, V-D3: reserved opcodes. -/
theorem test_decode_reserved_opcode :
    decode 0 = .error .reservedOpcode ∧ decode 6 = .error .reservedOpcode ∧
      decode 15 = .error .reservedOpcode := by decide
/-- V-D4 to V-D7: reserved bits. -/
theorem test_decode_reserved_fields :
    decode 0x50812 = .error .reservedFieldNonzero ∧
      decode 0x54802 = .error .reservedFieldNonzero ∧
      decode 0x450802 = .error .reservedFieldNonzero ∧
      decode 0x80000001 = .error .reservedFieldNonzero := by decide
/-- The opcode table's GNEXT row with the 32 bits it fixes. -/
theorem test_decode_table_word : decodeTableWord 32 5 = some .gnext := by decide

/-! ### Instructions, on the vectors of 95_test_vectors.md -/

/-- V-B11 and V-B17. -/
theorem test_binom :
    responseTo State.reset 0x102001 = some (0, 601080390) ∧
      responseTo State.reset 0x3F3F01 = some (2, 0) := by decide +kernel
/-- V-R4 and V-R13. -/
theorem test_rank_ok :
    responseTo State.reset 0x0000007A00050802 = some (0, 19) ∧
      responseTo State.reset 0xFFFF000000102002 = some (0, 601080389) := by decide +kernel
/-- V-R17, V-R18 and V-R21. -/
theorem test_rank_errors :
    responseTo State.reset 0x0000011F00050802 = some (3, 0) ∧
      responseTo State.reset 0x0000000F00050802 = some (3, 0) ∧
      responseTo State.reset 0xFFFFFFFF00022802 = some (2, 0) := by decide +kernel
/-- V-U4 and V-U14. -/
theorem test_unrank_ok :
    responseTo State.reset 0x0000001300050803 = some (0, 122) ∧
      responseTo State.reset 0x23D3C24500102003 = some (0, 0xFFFF0000) := by decide +kernel
/-- V-U6, V-U18 and V-U19. -/
theorem test_unrank_errors :
    responseTo State.reset 0x0000003800050803 = some (3, 0) ∧
      responseTo State.reset 0x0000000500000203 = some (3, 0) ∧
      responseTo State.reset 0x0000000000080703 = some (2, 0) := by decide +kernel
/-- G4 step 1 and G5 step 4. -/
theorem test_gstart :
    generatorAfter State.reset 0x1F2004 = some (.active, 32, 31, 0x7FFFFFFF) ∧
      generatorAfter (gen .active 4 2 3) 0x90504 = some (.active, 4, 2, 3) := by decide +kernel
/-- G4 step 2, G1 steps 1, 8 and 9. -/
theorem test_gnext :
    responseTo (gen .active 32 31 0x7FFFFFFF) 5 = some (0, 0xBFFFFFFF) ∧
      responseTo State.reset 5 = some (4, 0) ∧
      generatorAfter (gen .active 4 2 12) 5 = some (.done, 4, 2, 12) ∧
      responseTo (gen .done 4 2 12) 5 = some (5, 0) := by decide +kernel
/-- P4 steps 1 and 2. -/
theorem test_no_generator :
    responseTo noGen 0x20404 = some (1, 0) ∧ responseTo noGen 5 = some (1, 0) := by
  decide +kernel
/-- 40_binomial_table.md R102 against R104, a row in the middle. -/
theorem test_pascal_row :
    nextPascalRow [1, 7, 21, 35, 35, 21, 7, 1] = [1, 8, 28, 56, 70, 56, 28, 8, 1] := by decide
/-- 70_reset_and_hazards.md R230: a reset edge in BUSY abandons the command. -/
theorem test_reset_abandons :
    (match step (at_ (.busy 5 3) [resetPins]) with
      | .next t => decide (t.ifSt = .ready)
      | _ => false) = true := by decide +kernel
/-- 30_encoding.md R90, R96: `RANK 8, 5, 0x2F ;c`. -/
theorem test_assemble :
    ((parseLine ['R', 'A', 'N', 'K', ' ', '8', ',', ' ', '5', ',', ' ', '0', 'x', '2', 'F', ' ',
      ';', 'c']).bind assembleLine) = some 0x0000002F00050802 := by decide +kernel
/-- 30_encoding.md R92 on V-D3. -/
theorem test_disassemble_word :
    disassemble 0xF = .word 0xF ∧
      wordText 0xF = ['.', 'w', 'o', 'r', 'd', ' ', '0', 'x', '0', '0', '0', '0', '0', '0', '0',
        '0', '0', '0', '0', '0', '0', '0', '0', 'F'] := by decide +kernel

/-! ### Witnesses: each statement's hypotheses can be met -/

theorem test_witness_DecodeEncodeRoundTrip :
    (Instr.binom 63 63).WellFormed = true ∧ (Instr.rank 63 63 0xFFFFFFFF).WellFormed = true ∧
      (Instr.unrank 63 63 (2 ^ 32 - 1)).WellFormed = true ∧
      (Instr.gstart 63 63).WellFormed = true ∧ Instr.gnext.WellFormed = true := by decide
theorem test_witness_EncAndFieldExtractionAreInverse :
    (15 < 16 ∧ 63 < 64 ∧ 63 < 64 ∧ 2 ^ 32 - 1 < 2 ^ 32) ∧
      (rsv0Field 0xFFFFFFFF003F3F0F = 0 ∧ rsv1Field 0xFFFFFFFF003F3F0F = 0 ∧
        rsv2Field 0xFFFFFFFF003F3F0F = 0) := by decide
theorem test_witness_MatchAndMaskSelectTheCommand :
    ((0xFFFFFFFF003F3F01 : CmdWord) &&& 0x00000000FFC0C0FF = 0x1) ∧
      ((0xFFFFFFFF003F3F02 : CmdWord) &&& 0x00000000FFC0C0FF = 0x2) ∧
      ((0xFFFFFFFF003F3F03 : CmdWord) &&& 0x00000000FFC0C0FF = 0x3) ∧
      ((0xFFFFFFFF003F3F04 : CmdWord) &&& 0x00000000FFC0C0FF = 0x4) ∧
      ((0xFFFFFFFF003F3F05 : CmdWord) &&& 0x00000000FFC0C0FF = 0x5) ∧
      ∀ i : Instr, (6 : CmdWord) &&& 0x00000000FFC0C0FF ≠ opcodeMatch i :=
  ⟨by decide, by decide, by decide, by decide, by decide, fun i => by cases i <;> simp [opcodeMatch]⟩
theorem test_witness_UnusedFieldsHaveNoEffect :
    ((0xFFFFFFFF00050801 : CmdWord) &&& opcodeMask = 0x50801 &&& opcodeMask ∧
        (0xFFFFFFFF00050801 : CmdWord) &&& opcodeMask = 1 ∧
        nField 0xFFFFFFFF00050801 = nField 0x50801 ∧
        kField 0xFFFFFFFF00050801 = kField 0x50801) ∧
      ((0xFFFFFFFF00050804 : CmdWord) &&& opcodeMask = 0x50804 &&& opcodeMask ∧
        (0xFFFFFFFF00050804 : CmdWord) &&& opcodeMask = 4 ∧
        nField 0xFFFFFFFF00050804 = nField 0x50804 ∧
        kField 0xFFFFFFFF00050804 = kField 0x50804) ∧
      ((0xFFFFFFFF003F3F05 : CmdWord) &&& opcodeMask = 5 &&& opcodeMask ∧
        (0xFFFFFFFF003F3F05 : CmdWord) &&& opcodeMask = 5) ∧
      ((0xFFFFFFFF003F3F06 : CmdWord) &&& opcodeMask = 6 &&& opcodeMask ∧
        IllegalWord 0xFFFFFFFF003F3F06) := by decide
theorem test_witness_IllegalWordsAnswerErrIllegal :
    (IllegalWord 0x50812 ∧ IllegalWord 0x54802 ∧ IllegalWord 0x450802 ∧ IllegalWord 0 ∧
        IllegalWord 6 ∧ IllegalWord 15) ∧
      (noGen.params.hasGen = false ∧ opField 0x20404 = 4 ∧ opField 5 = 5) := by decide
theorem test_witness_DecodedCommandsAreWellFormed : decode 0x3F3F01 = .ok (.binom 63 63) := by
  decide
theorem test_witness_DisassembledLineRunsAlike :
    assemble (.binom 63 63) = some 0x3F3F01 ∧ assemble .gnext = some 5 := by decide
theorem test_witness_RomHoldsBinomialCoefficients :
    ((0 ≤ 32) ∧ (32 ≤ 32)) ∧ (0 < 1 ∧ 1 < 2 ∧ 2 ≤ 32) ∧ (0 < 31 ∧ 31 < 32 ∧ 32 ≤ 32) := by
  decide
theorem test_witness_RomIsTheBuiltTable : romContent[0]? = some [1#32] := by decide +kernel
theorem test_witness_RomEntryBoundsAndEdges :
    romRead romContent 32 16 = some 601080390#32 ∧ romRead romContent 32 32 = some 1#32 := by
  decide +kernel
theorem test_witness_RomHasNoEntryOutsideTriangle :
    ((32 < 33 ∨ 33 < 0) ∧ (32 < 0 ∨ 0 < 1)) := by decide
theorem test_witness_BinomAnswersTheCoefficient :
    State.reset.RomIntact ∧ (0 ≤ 0 ∧ 0 ≤ 32) ∧ (32 ≤ 32 ∧ 32 ≤ 32) ∧ (32 < 33 ∨ 33 < 0) ∧
      (32 < 32 ∨ 32 < 33) ∧ (0xFFFFFFFF00202001 : CmdWord) &&& 0x00000000FFC0C0FF = 0x1 :=
  ⟨rfl, by decide, by decide, by decide, by decide, by decide⟩
/-- RankCountsSmallerBitmaps, RankHasTheClosedForm and RankIsBelowTheCoefficient share hypotheses. -/
theorem test_witness_RankOfValidBitmap :
    State.reset.RomIntact ∧ ConfigValid 32 16 ∧ BitmapValid 32 16 0xFFFF0000 ∧
      ConfigValid 0 0 ∧ BitmapValid 0 0 0 :=
  ⟨rfl, by decide, by decide +kernel, by decide, by decide +kernel⟩
theorem test_witness_RankWalkFollowsItsCursor :
    32 ≤ 32 ∧ (0 = 0 ∨ 0 = 32) ∧ (32 = 0 ∨ 32 = 32) ∧
      (0 < 31 ∧ 31 < 32 ∧ (0x80000000 : Word32).getLsbD (32 - 1) = true) ∧
      (0 < 1 ∧ 1 < 2 ∧ (0x80000000 : Word32).getLsbD (2 - 1) = false) := by decide
theorem test_witness_RankWalkStaysInsideTheTriangle : ConfigValid 32 0 ∧ ConfigValid 32 32 := by
  decide
theorem test_witness_RankCornerCases :
    State.reset.RomIntact ∧ ConfigValid 32 16 ∧ (1#32 ≠ 0#32) ∧
      (ConfigValid 2 1 ∧ popcount 3 ≠ 1) ∧
      (ConfigValid 8 5 ∧ ∃ p, 8 ≤ p ∧ (0x11F : Word32).getLsbD p = true) ∧
      (8 < 9 ∨ 32 < 8) ∧ (33 < 0 ∨ 32 < 33) :=
  ⟨rfl, by decide, by decide, by decide +kernel, ⟨by decide, 8, by decide⟩, by decide, by decide⟩
theorem test_witness_RankWordRunsRank :
    (0xFFFFFFFF003F3F02 : CmdWord) &&& 0x00000000FFC0C0FF = 0x2 := by decide
theorem test_witness_UnrankAnswersTheBitmapOfTheRank :
    State.reset.RomIntact ∧ ConfigValid 8 5 ∧ RankValid 8 5 0 ∧ RankValid 8 5 55 ∧
      ConfigValid 0 0 ∧ RankValid 0 0 0 :=
  ⟨rfl, by decide, by decide, by decide, by decide, by decide⟩
theorem test_witness_RankAndUnrankAreInverse :
    State.reset.RomIntact ∧ ConfigValid 8 5 ∧ RankValid 8 5 55 ∧ BitmapValid 8 5 0xF8 ∧
      (0 < 1 ∧ exec (.unrank 8 5 0) State.reset = .next (State.reset.posted 0#3 31#32) ∧
        exec (.unrank 8 5 1) State.reset = .next (State.reset.posted 0#3 47#32)) :=
  ⟨rfl, by decide, by decide, by decide +kernel, by decide, rfl, rfl⟩
theorem test_witness_UnrankWalkFollowsItsCursor :
    (31 < 32 ∧ 32 ≤ 31 + 1) ∧ (0 < 32 ∧ 0 < Nat.choose 31 (32 - 1)) ∧
      (0 < 1 ∧ Nat.choose 31 (1 - 1) ≤ 1) := by decide
theorem test_witness_UnrankWalkStaysInsideTheTriangle :
    (0 ≤ 32 ∧ 32 ≤ 32 ∧ 0 < Nat.choose 32 0) ∧ (32 ≤ 32 ∧ 32 ≤ 32 ∧ 0 < Nat.choose 32 32) := by
  decide
theorem test_witness_UnrankCornerCases :
    State.reset.RomIntact ∧ ConfigValid 8 5 ∧ 1 ≤ 1 ∧ Nat.choose 8 5 ≤ 56 ∧ (7 < 8 ∨ 32 < 7) ∧
      (33 < 1 ∨ 32 < 33) :=
  ⟨rfl, by decide, by decide, by decide, by decide, by decide⟩
theorem test_witness_UnrankWordRunsUnrank :
    (0xFFFFFFFF003F3F03 : CmdWord) &&& 0x00000000FFC0C0FF = 0x3 := by decide
theorem test_witness_FirstAndLastAreTheExtremes :
    ConfigValid 32 32 ∧ ConfigValid 0 0 ∧ BitmapValid 32 32 0xFFFFFFFF ∧ BitmapValid 0 0 0 :=
  ⟨by decide, by decide, by decide +kernel, by decide +kernel⟩
theorem test_witness_GstartStartsTheSequence :
    State.reset.params.hasGen = true ∧ noGen.params.hasGen = false ∧ (32 ≤ 32 ∧ 32 ≤ 32) ∧ (32 < 33 ∨ 33 < 0) ∧
      (32 < 32 ∨ 32 < 33) ∧ (0xFFFFFFFF003F3F04 : CmdWord) &&& 0x00000000FFC0C0FF = 0x4 := by
  decide
theorem test_witness_GnextFollowsItsPhase :
    (State.reset.params.hasGen = true ∧ State.reset.genSt = .idle) ∧
      ((gen .done 4 2 12).params.hasGen = true ∧ (gen .done 4 2 12).genSt = .done) ∧
      ((gen .active 4 2 12).params.hasGen = true ∧ (gen .active 4 2 12).genSt = .active ∧
        SequenceValid 4 2 12 ∧ (12 : Word32) = lastBitmap 4 2) ∧
      (SequenceValid 32 1 0x40000000 ∧ (0x40000000 : Word32) ≠ lastBitmap 32 1) ∧
      (0xFFFFFFFF003F3F05 : CmdWord) &&& 0x00000000FFC0C0FF = 0x5 := by decide +kernel
theorem test_witness_TrailingZerosAreCounted : (0x80000000#32 ≠ 0#32) ∧ 31 < 32 := by decide
theorem test_witness_NextPatternHasItsArithmeticForm :
    ConfigValid 32 31 ∧ BitmapValid 32 31 0x7FFFFFFF ∧ (0x7FFFFFFF : Word32) ≠ lastBitmap 32 31 := by
  decide +kernel
theorem test_witness_GnextDeliversTheSuccessor :
    (gen .active 8 5 62).params.hasGen = true ∧ (gen .active 8 5 62).genSt = .active ∧
      SequenceValid (gen .active 8 5 62).genN (gen .active 8 5 62).genK
        (gen .active 8 5 62).genCur ∧
      (gen .active 8 5 62).genCur ≠ lastBitmap (gen .active 8 5 62).genN.toNat
        (gen .active 8 5 62).genK.toNat ∧
      BitmapValid 8 5 79 ∧ (62 : Nat) < 79 := by decide +kernel
theorem test_witness_GeneratorDeliversTheWholeSequence :
    State.reset.params.hasGen = true ∧ State.reset.RomIntact ∧ ConfigValid 4 2 ∧
      5 < Nat.choose 4 2 ∧ Nat.choose 4 2 ≤ 6 :=
  ⟨rfl, rfl, by decide, by decide, by decide⟩
theorem test_witness_AbsentGeneratorIsIllegal : noGen.params.hasGen = false := rfl
/-- Also TableCommandsDoNotDisturbTheSequence. -/
theorem test_witness_TableCommandsIgnoreTheGenerator :
    usesTableOnly (.rank 8 5 47) = true ∧ State.reset.btab = (gen .active 4 2 5).btab ∧
      exec (.rank 8 5 47) State.reset = .next (State.reset.posted 0#3 1#32) :=
  ⟨rfl, rfl, rfl⟩
theorem test_witness_GstartTwiceIsGstartOnce :
    exec (.gstart 33 0) State.reset = .next (State.reset.posted 2#3 0#32) ∧
      ∃ t, exec (.gstart 4 2) State.reset = .next t := ⟨rfl, _, rfl⟩
theorem test_witness_OnlyGeneratorCommandsWriteTheGenerator :
    (currentPins (at_ (.busy 0x20404 0) [])).rst = false ∧
      (∃ t, step (at_ (.busy 0x20404 0) []) = .next t ∧
        t.genN ≠ (at_ (.busy 0x20404 0) []).genN ∧ t.genSt ≠ (at_ (.busy 0x20404 0) []).genSt) :=
  ⟨rfl, _, rfl, by decide +kernel, by decide +kernel⟩
theorem test_witness_ConfigErrorsAreRejectedFirst :
    ((32 < 33 ∨ 33 < 0) ∧ (32 < 32 ∨ 32 < 33)) ∧ State.reset.params.hasGen = true ∧
      exec .gnext State.reset = .next (State.reset.posted 4#3 0#32) := ⟨by decide, rfl, rfl⟩
theorem test_witness_OperandErrorsAreReported :
    (ConfigValid 8 5 ∧ ((0x11F : Word32) >>> 8 ≠ 0#32 ∨ popcount 0x11F ≠ 5)) ∧
      (ConfigValid 8 5 ∧ ((0x0F : Word32) >>> 8 ≠ 0#32 ∨ popcount 0x0F ≠ 5)) ∧
      State.reset.RomIntact ∧ Nat.choose 8 5 ≤ 56 ∧
      (State.reset.params.hasGen = true ∧ State.reset.genSt = .idle) :=
  ⟨by decide +kernel, by decide +kernel, rfl, by decide, rfl, rfl⟩
/-- Also ErrorsArePrecise: the status lies between 1 and 4. -/
theorem test_witness_EveryCommandPostsOneResponse :
    runWord 6 State.reset = .next (State.reset.posted 1#3 0#32) ∧
      runWord 5 State.reset = .next (State.reset.posted 4#3 0#32) ∧ 1 ≤ (1#3).toNat ∧
      (4#3).toNat ≤ 4 := ⟨rfl, rfl, by decide, by decide⟩

/-- A state in mid-sequence that satisfies the invariant; for the statements about such states. -/
theorem test_witness_consistent_state : (gen .active 4 2 6).Inv where
  rom := rfl
  generator := fun _ => ⟨by decide +kernel, fun h => by cases h⟩
  response := ⟨by decide, fun _ => rfl⟩
  absent := fun h => by cases h

theorem test_witness_StatusFollowsThePriority :
    (gen .active 4 2 6).Inv ∧ (gen .active 4 2 6).params.hasGen = true ∧
      runWord 0 (gen .active 4 2 6) = .next ((gen .active 4 2 6).posted 1#3 0#32) :=
  ⟨test_witness_consistent_state, rfl, rfl⟩
theorem test_witness_StepRunsTheDecodedCommand :
    ((at_ (.busy 5 0) [offer 1]).ifSt = .busy 5 0 ∧
        (currentPins (at_ (.busy 5 0) [offer 1])).rst = false ∧ decode 5 = .ok .gnext) ∧
      ((at_ (.busy 6 0) []).ifSt = .busy 6 0 ∧ (currentPins (at_ (.busy 6 0) [])).rst = false ∧
        decode 6 = .error .reservedOpcode) ∧
      decodeTableWord 64 0x102001 = some (.binom 32 16) := by decide +kernel
theorem test_witness_ResetEdgeGivesTheResetState :
    (currentPins (at_ (.busy 5 3) [resetPins])).rst = true ∧
      (currentPins (powerUpState [resetPins])).rst = true := ⟨rfl, rfl⟩
theorem test_witness_ResetHoldsTheResetValues : 32 ≤ 32 ∧ 0 ≤ 32 := by decide
theorem test_witness_BtabAndParametersNeverChange :
    step State.reset = .next (passEdge State.reset) := rfl
theorem test_witness_InterfacePhaseMovesAsRuled :
    ((currentPins (at_ .ready [offer 5])).rst = false ∧
        (currentPins (at_ .ready [offer 5])).cmdValid = true) ∧
      ((currentPins (at_ .ready [])).cmdValid = false) ∧
      ((at_ (.busy 5 1) []).ifSt = .busy 5 (0 + 1)) ∧
      ((currentPins (at_ .resp [offer 5])).rspReady = true) ∧
      ((currentPins (at_ .resp [])).rspReady = false) ∧ (at_ .resp []).ifSt ≠ .ready := by decide
theorem test_witness_phase_after_busy :
    ∃ t, step (at_ (.busy 5 0) []) = .next t ∧ t.ifSt = .resp := ⟨_, rfl, rfl⟩
theorem test_witness_OutputPortsFollowTheRegisters :
    rspValid (at_ .resp []) = true ∧ cmdReady State.reset = true := by decide
theorem test_witness_CommandPortIsSampledOnTransferOnly :
    (offer 5).rst = (offer 6).rst ∧ (offer 5).rspReady = (offer 6).rspReady ∧
      acceptedWord { at_ .resp [] with host := offer 5 :: [] } = none ∧
      acceptedWord { at_ .resp [] with host := offer 6 :: [] } = none := by decide
theorem test_witness_ResponseStandsUntilTaken :
    (at_ .resp [Pins.idle, Pins.idle]).ifSt = .resp ∧
      ∀ p ∈ (at_ .resp [Pins.idle, Pins.idle]).host.take 2,
        p.rst = false ∧ p.rspReady = false := by decide
/-- The wait is free, so the host's schedule after the offer is empty: idle at every edge. -/
theorem test_witness_AcceptedCommandIsAnswered :
    { gen .active 4 2 6 with host := [offer 5] }.Inv ∧
      { gen .active 4 2 6 with host := [offer 5] }.ifSt = .ready ∧
      (offer 5).rst = false ∧ (offer 5).cmdValid = true ∧
      ∀ m, ∀ q ∈ ([] : List Pins).take (m + 1), q.rst = false :=
  ⟨⟨rfl, fun _ => ⟨by decide +kernel, fun h => by cases h⟩, ⟨by decide, fun _ => rfl⟩,
    fun h => by cases h⟩, rfl, rfl, rfl, fun m q hq => by simp at hq⟩
theorem test_witness_ObservationIsTheHistory :
    (at_ .ready [offer 5, offer 0x20404]).ifSt = .ready ∧
      ∀ p ∈ (at_ .ready [offer 5, offer 0x20404]).host, p.rst = false := by decide
/-- A run of one command: reset, GNEXT offered, its free wait spent idle, performed, and its ERR_STATE
response taken (95_test_vectors.md G1 step 1). -/
theorem test_witness_RunRecordIsTheHistoryFromReset :
    ∃ s edges, recordRun edges s = some ⟨[⟨5, 4, 0⟩], ⟨.idle, 0, 0, 0⟩⟩ := by
  refine ⟨at_ .ready (resetPins :: offer 5 ::
    (List.replicate (Config.latencyBeyondOne 5 1) Pins.idle ++ [Pins.idle, offerNothing])),
    2 + (Config.latencyBeyondOne 5 1 + 2), ?_⟩
  rw [show 2 + (Config.latencyBeyondOne 5 1 + 2) = (Config.latencyBeyondOne 5 1 + 2) + 1 + 1 by omega]
  have hwait := recordFrom_wait 5 2 (Config.latencyBeyondOne 5 1) [Pins.idle, offerNothing]
    { gen .idle 0 0 0 with
      ifSt := .busy 5 (Config.latencyBeyondOne 5 1)
      host := List.replicate (Config.latencyBeyondOne 5 1) Pins.idle ++ [Pins.idle, offerNothing]
      edge := 2 } rfl rfl
  exact congrArg (Option.map fun r => { r with triples := [] ++ r.triples }) hwait
/-- A run may be no command at all: a reset held for two edges. -/
theorem test_witness_empty_run :
    recordRun 2 (at_ (.busy 5 3) [resetPins, resetPins]) = some ⟨[], ⟨.idle, 0, 0, 0⟩⟩ := rfl
theorem test_witness_EveryCommandSequenceHasARun : (gen .active 4 2 6).RomIntact := rfl
/-- EveryStepKeepsConsistency and ConsistentStatesNeverStop. -/
theorem test_witness_EveryStepKeepsConsistency :
    (gen .active 4 2 6).Inv ∧ step (gen .active 4 2 6) = .next (passEdge (gen .active 4 2 6)) :=
  ⟨test_witness_consistent_state, rfl⟩

end Sys2Proof.Tests
end

/-! PROOFS for 00_scope.md: the bit operators of R13, the domain of RomRead (R14), and the ends of a
sequence (R21). -/

namespace Sys2Proof.Machine

/-! ### `ctz32` (R13) -/

/-- The search ends inside its range, passes over clear bits only, and ends on a set bit unless the
range is exhausted. -/
theorem firstSetFrom_spec (v : Word32) (left pos : Nat) :
    pos ≤ firstSetFrom v left pos ∧ firstSetFrom v left pos ≤ pos + left ∧
      (∀ p, pos ≤ p → p < firstSetFrom v left pos → v.getLsbD p = false) ∧
      (firstSetFrom v left pos < pos + left → v.getLsbD (firstSetFrom v left pos) = true) := by
  induction left generalizing pos with
  | zero => simp only [firstSetFrom]; exact ⟨le_rfl, le_rfl, fun p _ _ => by omega, fun _ => by omega⟩
  | succ left ih =>
    unfold firstSetFrom
    split
    next hbit => exact ⟨le_rfl, by omega, fun p _ _ => by omega, fun _ => hbit⟩
    next hbit =>
      obtain ⟨hlow, hhigh, hclear, hset⟩ := ih (pos + 1)
      refine ⟨by omega, by omega, fun p hp hlt => ?_, fun _ => hset (by omega)⟩
      rcases Nat.eq_or_lt_of_le hp with rfl | hgt
      · exact Bool.eq_false_iff.mpr hbit
      · exact hclear p hgt hlt

theorem ctz32_le (v : Word32) : ctz32 v ≤ 32 := by
  obtain ⟨-, hle, -, -⟩ := firstSetFrom_spec v 32 0
  rwa [Nat.zero_add] at hle

theorem getLsbD_of_lt_ctz32 {v : Word32} {p : Nat} (h : p < ctz32 v) : v.getLsbD p = false := by
  obtain ⟨-, -, hclear, -⟩ := firstSetFrom_spec v 32 0
  exact hclear p p.zero_le h

theorem getLsbD_ctz32 {v : Word32} (h : ctz32 v < 32) : v.getLsbD (ctz32 v) = true := by
  obtain ⟨-, -, -, hset⟩ := firstSetFrom_spec v 32 0
  exact hset h

@[simp] theorem ctz32_zero : ctz32 0#32 = 32 := by
  by_contra hne
  have hset := getLsbD_ctz32 (Nat.lt_of_le_of_ne (ctz32_le 0#32) hne)
  simp at hset

/-- Were every bit clear, the value would be 0. -/
theorem ctz32_lt_of_ne_zero {v : Word32} (h : v ≠ 0#32) : ctz32 v < 32 := by
  refine Nat.lt_of_le_of_ne (ctz32_le v) fun hend => h (BitVec.eq_of_getLsbD_eq fun i hi => ?_)
  rw [getLsbD_of_lt_ctz32 (hend ▸ hi), BitVec.getLsbD_zero]

/-! ### `popcount` (R13) and the value of a bitmap -/

/-- The value of the low m + 1 bits, from that of the low m. -/
theorem toNat_mod_two_pow_succ (v : Word32) (m : Nat) :
    v.toNat % 2 ^ (m + 1) = v.toNat % 2 ^ m + 2 ^ m * (v.getLsbD m).toNat := by
  rw [Nat.mod_pow_succ, ← BitVec.testBit_toNat, Nat.toNat_testBit]

/-- Among the values with as many set bits, the smallest has them at the bottom. -/
theorem two_pow_bitsBelow_le (v : Word32) (m : Nat) :
    2 ^ bitsBelow v m ≤ v.toNat % 2 ^ m + 1 := by
  induction m with
  | zero => simp
  | succ m ih =>
    have hpow : 2 ^ bitsBelow v m ≤ 2 ^ m := Nat.pow_le_pow_right (by decide) (bitsBelow_le v m)
    rw [bitsBelow_succ, toNat_mod_two_pow_succ]
    cases v.getLsbD m with
    | false => simpa using ih
    | true => simp only [Bool.toNat_true, pow_succ]; omega

/-- Among the values with as many set bits, the largest has them at the top. -/
theorem toNat_mod_add_two_pow_le (v : Word32) (m : Nat) :
    v.toNat % 2 ^ m + 2 ^ (m - bitsBelow v m) ≤ 2 ^ m := by
  induction m with
  | zero => simp [Nat.mod_one]
  | succ m ih =>
    have hle := bitsBelow_le v m
    rw [bitsBelow_succ, toNat_mod_two_pow_succ, pow_succ]
    cases v.getLsbD m with
    | false =>
      have hpow : 2 ^ (m - bitsBelow v m) ≤ 2 ^ m := Nat.pow_le_pow_right (by decide) (Nat.sub_le ..)
      simp only [Bool.toNat_false, Nat.add_zero, Nat.sub_add_comm hle, pow_succ]
      omega
    | true => rw [Bool.toNat_true, Nat.add_sub_add_right]; omega

/-- Clear bits add nothing to the count. -/
theorem bitsBelow_eq_of_clear {v : Word32} {n m : Nat} (hnm : n ≤ m)
    (h : ∀ i, n ≤ i → v.getLsbD i = false) : bitsBelow v m = bitsBelow v n := by
  induction m, hnm using Nat.le_induction with
  | base => rfl
  | succ m hm ih => rw [bitsBelow_succ, h m hm, ih]; rfl

/-- The count of one block of set bits, from position lo up to hi. -/
theorem bitsBelow_of_block {v : Word32} {lo hi : Nat} (hlh : lo ≤ hi)
    (h : ∀ i, v.getLsbD i = decide (lo ≤ i ∧ i < hi)) (m : Nat) :
    bitsBelow v m = min m hi - lo := by
  induction m with
  | zero => simp
  | succ m ih =>
    rw [bitsBelow_succ, h, ih]
    by_cases hin : lo ≤ m ∧ m < hi
    · rw [decide_eq_true hin, Bool.toNat_true]; omega
    · rw [decide_eq_false hin, Bool.toNat_false]; omega

/-! ### Valid bitmaps (R18) -/

theorem ushiftRight_eq_zero_iff_lt (v : Word32) (n : Nat) : v >>> n = 0 ↔ v.toNat < 2 ^ n := by
  rw [← BitVec.toNat_inj, BitVec.toNat_ushiftRight, Nat.shiftRight_eq_div_pow]
  exact Nat.div_eq_zero_iff_lt (Nat.two_pow_pos n)

theorem bitmapValid_iff (n k : Nat) (b : Word32) :
    BitmapValid n k b ↔ b.toNat < 2 ^ n ∧ popcount b = k := by
  rw [BitmapValid, ushiftRight_eq_zero_iff_lt]

theorem getLsbD_of_toNat_lt {v : Word32} {n i : Nat} (h : v.toNat < 2 ^ n) (hi : n ≤ i) :
    v.getLsbD i = false := by
  rw [← BitVec.testBit_toNat]
  exact Nat.testBit_lt_two_pow (h.trans_le (Nat.pow_le_pow_right (by decide) hi))

/-- A valid bitmap has its k set bits among its low n. -/
theorem bitsBelow_of_bitmapValid {n k : Nat} {b : Word32} (hn : n ≤ 32) (h : BitmapValid n k b) :
    bitsBelow b n = k := by
  obtain ⟨hlt, hpop⟩ := (bitmapValid_iff n k b).mp h
  rw [← hpop, popcount, bitsBelow_eq_of_clear hn fun i => getLsbD_of_toNat_lt hlt]

theorem two_pow_sub_one_le_of_bitmapValid {n k : Nat} {b : Word32} (hn : n ≤ 32)
    (h : BitmapValid n k b) : 2 ^ k - 1 ≤ b.toNat := by
  have hbound := two_pow_bitsBelow_le b n
  rw [bitsBelow_of_bitmapValid hn h, Nat.mod_eq_of_lt ((bitmapValid_iff n k b).mp h).1] at hbound
  omega

theorem toNat_le_of_bitmapValid {n k : Nat} {b : Word32} (hn : n ≤ 32) (h : BitmapValid n k b) :
    b.toNat ≤ 2 ^ n - 2 ^ (n - k) := by
  have hbound := toNat_mod_add_two_pow_le b n
  rw [bitsBelow_of_bitmapValid hn h, Nat.mod_eq_of_lt ((bitmapValid_iff n k b).mp h).1] at hbound
  omega

/-! ### FIRST and LAST (R21) -/

theorem two_pow_sub_one_shiftLeft {n k : Nat} (hk : k ≤ n) :
    (2 ^ k - 1) <<< (n - k) = 2 ^ n - 2 ^ (n - k) := by
  rw [Nat.shiftLeft_eq, Nat.sub_mul, one_mul, ← pow_add, Nat.add_sub_cancel' hk]

/-- FIRST is the LAST of a configuration in which every bit is set. -/
theorem firstBitmap_eq_lastBitmap (k : Nat) : firstBitmap k = lastBitmap k k := by
  simp [firstBitmap, lastBitmap]

/-- LAST fits its 32 bits: nothing wraps. -/
theorem toNat_lastBitmap {n k : Nat} (hk : k ≤ n) (hn : n ≤ 32) :
    (lastBitmap n k).toNat = (2 ^ k - 1) <<< (n - k) := by
  have hn' : 2 ^ n ≤ 2 ^ 32 := Nat.pow_le_pow_right (by decide) hn
  have hpos : 0 < 2 ^ (n - k) := Nat.two_pow_pos _
  rw [lastBitmap, BitVec.toNat_ofNat, Nat.mod_eq_of_lt]
  rw [two_pow_sub_one_shiftLeft hk]
  omega

theorem toNat_lastBitmap_lt {n k : Nat} (hk : k ≤ n) (hn : n ≤ 32) :
    (lastBitmap n k).toNat < 2 ^ n := by
  have hpos : 0 < 2 ^ (n - k) := Nat.two_pow_pos _
  have hpos' : 0 < 2 ^ n := Nat.two_pow_pos _
  rw [toNat_lastBitmap hk hn, two_pow_sub_one_shiftLeft hk]
  omega

/-- The set bits of LAST are the positions n - k to n - 1. -/
theorem getLsbD_lastBitmap {n k : Nat} (hk : k ≤ n) (hn : n ≤ 32) (i : Nat) :
    (lastBitmap n k).getLsbD i = decide (n - k ≤ i ∧ i < n) := by
  rw [← BitVec.testBit_toNat, toNat_lastBitmap hk hn, Nat.testBit_shiftLeft,
    Nat.testBit_two_pow_sub_one, Bool.decide_and]
  by_cases hi : n - k ≤ i
  · have hiff : i - (n - k) < k ↔ i < n := by omega
    simp only [ge_iff_le, hiff]
  · simp [hi]

theorem popcount_lastBitmap {n k : Nat} (hk : k ≤ n) (hn : n ≤ 32) :
    popcount (lastBitmap n k) = k := by
  rw [popcount, bitsBelow_of_block (Nat.sub_le n k) (getLsbD_lastBitmap hk hn)]
  omega

theorem lastBitmap_valid {n k : Nat} (hk : k ≤ n) (hn : n ≤ 32) :
    BitmapValid n k (lastBitmap n k) :=
  (bitmapValid_iff ..).mpr ⟨toNat_lastBitmap_lt hk hn, popcount_lastBitmap hk hn⟩

theorem toNat_firstBitmap {k : Nat} (hk : k ≤ 32) : (firstBitmap k).toNat = 2 ^ k - 1 := by
  rw [firstBitmap_eq_lastBitmap, toNat_lastBitmap le_rfl hk, Nat.sub_self, Nat.shiftLeft_zero]

theorem toNat_firstBitmap_lt {n k : Nat} (hk : k ≤ n) (hn : n ≤ 32) :
    (firstBitmap k).toNat < 2 ^ n := by
  rw [firstBitmap_eq_lastBitmap]
  exact (toNat_lastBitmap_lt le_rfl (hk.trans hn)).trans_le (Nat.pow_le_pow_right (by decide) hk)

theorem firstBitmap_valid {n k : Nat} (hk : k ≤ n) (hn : n ≤ 32) :
    BitmapValid n k (firstBitmap k) := by
  refine (bitmapValid_iff ..).mpr ⟨toNat_firstBitmap_lt hk hn, ?_⟩
  rw [firstBitmap_eq_lastBitmap, popcount_lastBitmap le_rfl (hk.trans hn)]

theorem firstBitmap_le_of_bitmapValid {n k : Nat} {b : Word32} (hk : k ≤ n) (hn : n ≤ 32)
    (h : BitmapValid n k b) : (firstBitmap k).toNat ≤ b.toNat := by
  rw [toNat_firstBitmap (hk.trans hn)]
  exact two_pow_sub_one_le_of_bitmapValid hn h

theorem le_lastBitmap_of_bitmapValid {n k : Nat} {b : Word32} (hk : k ≤ n) (hn : n ≤ 32)
    (h : BitmapValid n k b) : b.toNat ≤ (lastBitmap n k).toNat := by
  rw [toNat_lastBitmap hk hn, two_pow_sub_one_shiftLeft hk]
  exact toNat_le_of_bitmapValid hn h

/-! ### The obligations -/

/-- Settles O27: an induction over the positions bounds every value by its number of set bits, and
FIRST and LAST attain the two bounds. -/
theorem firstAndLastAreTheExtremes : Obligations.FirstAndLastAreTheExtremes := by
  rintro n k ⟨hk, hn : n ≤ 32⟩
  exact ⟨toNat_firstBitmap (hk.trans hn), toNat_lastBitmap hk hn, toNat_firstBitmap_lt hk hn,
    toNat_lastBitmap_lt hk hn, firstBitmap_valid hk hn, lastBitmap_valid hk hn,
    fun _ hb => ⟨firstBitmap_le_of_bitmapValid hk hn hb, le_lastBitmap_of_bitmapValid hk hn hb⟩⟩

/-- Settles O30, by what the search of `ctz32` passes over and where it ends. -/
theorem trailingZerosAreCounted : Obligations.TrailingZerosAreCounted :=
  ⟨ctz32_zero, fun _ hv => ⟨ctz32_lt_of_ne_zero hv, getLsbD_ctz32 (ctz32_lt_of_ne_zero hv),
    fun _ hp => getLsbD_of_lt_ctz32 hp⟩⟩

/-- Settles O12: RomRead answers nothing off the triangle. -/
theorem romHasNoEntryOutsideTriangle : Obligations.RomHasNoEntryOutsideTriangle := by
  rintro btab i j (hrow | hcol)
  · exact romRead_outside btab i j fun ⟨_, hi⟩ => absurd hi (Nat.not_le.mpr hrow)
  · exact romRead_outside btab i j fun ⟨hj, _⟩ => absurd hj (Nat.not_le.mpr hcol)

end Sys2Proof.Machine

/-! PROOFS for 10_state.md: the content of BTAB (R35), which commands write which registers (R36 to
R41), the ports and the interface phase (R43, R44), the values after reset (R46), and the invariant
every step keeps. -/

namespace Sys2Proof.Machine

/-! ### BTAB holds the binomial coefficients (R35, R46) -/

/-- Row i of Pascal's triangle. -/
def chooseRow (i : Nat) : List Nat := (List.range (i + 1)).map (Nat.choose i)

/-- The neighbours' sums of row i are the inner entries of the next row. -/
theorem zipWith_add_chooseRow (i : Nat) :
    List.zipWith (· + ·) (chooseRow i) (chooseRow i).tail =
      (List.range i).map fun j => Nat.choose (i + 1) (j + 1) := by
  refine List.ext_getElem (by simp [chooseRow]) fun j _ _ => ?_
  simp [chooseRow, Nat.choose_succ_succ]

theorem nextPascalRow_chooseRow (i : Nat) : nextPascalRow (chooseRow i) = chooseRow (i + 1) := by
  rw [nextPascalRow, zipWith_add_chooseRow, chooseRow, List.range_succ_eq_map, List.range_succ]
  simp

theorem buildRows_chooseRow (i m : Nat) :
    buildRows (chooseRow i) m = (List.range' i (m + 1)).map chooseRow := by
  induction m generalizing i with
  | zero => rfl
  | succ m ih =>
    rw [buildRows, nextPascalRow_chooseRow, ih, List.range'_succ (n := m + 1), List.map_cons]

/-- The listing of 40_binomial_table.md R102 is the source's build. -/
theorem romRows_eq_buildRows : romRowsLow ++ romRowsHigh = buildRows [1] 32 := by decide +kernel

/-- The ROM's rows are those of Pascal's triangle. -/
theorem romContent_eq_chooseRows :
    romContent = (List.range 33).map fun i => (chooseRow i).map (BitVec.ofNat 32) := by
  rw [romContent, romRows_eq_buildRows, show [1] = chooseRow 0 from rfl, buildRows_chooseRow,
    ← List.range_eq_range', List.map_map]
  rfl

theorem romRead_romContent {i j : Nat} (hj : j ≤ i) (hi : i ≤ 32) :
    romRead romContent i j = some (BitVec.ofNat 32 (Nat.choose i j)) := by
  rw [romRead_eq_some_iff, romContent_eq_chooseRows]
  refine ⟨⟨hj, hi⟩, (chooseRow i).map (BitVec.ofNat 32), ?_, ?_⟩
  · rw [List.getElem?_map, List.getElem?_range (Nat.lt_succ_of_le hi), Option.map_some]
  · rw [List.getElem?_map, chooseRow, List.getElem?_map, List.getElem?_range (Nat.lt_succ_of_le hj)]
    rfl

/-! ### What a decoded word matches (30_encoding.md R84) -/

/-- A field of a word in its place is the word under the field's mask. -/
theorem and_fieldMask (w : CmdWord) (start len : Nat) :
    w &&& ((BitVec.allOnes len).setWidth 64 <<< start) =
      BitVec.ofNat 64 (w.extractLsb' start len).toNat <<< start := by
  rw [BitVec.ofNat_toNat]
  refine BitVec.eq_of_getLsbD_eq fun i hi => ?_
  rcases Nat.lt_or_ge i start with hlt | hge
  · simp [hlt]
  · have hadd : start + (i - start) = i := Nat.add_sub_cancel' hge
    by_cases hlen : i - start < len
    · simp [hi, hge.not_gt, hlen, hadd]
    · simp [hge, hlen]

/-- What the mask of 30_encoding.md R84 leaves of a word: its opcode and its reserved fields. -/
theorem and_opcodeMask (w : CmdWord) :
    w &&& opcodeMask =
      BitVec.ofNat 64 (opField w) <<< 0 ||| BitVec.ofNat 64 (rsv0Field w) <<< 4 |||
        BitVec.ofNat 64 (rsv1Field w) <<< 14 ||| BitVec.ofNat 64 (rsv2Field w) <<< 22 := by
  have hmask : opcodeMask =
      (BitVec.allOnes 4).setWidth 64 <<< 0 ||| (BitVec.allOnes 4).setWidth 64 <<< 4 |||
        (BitVec.allOnes 2).setWidth 64 <<< 14 ||| (BitVec.allOnes 10).setWidth 64 <<< 22 := by
    decide
  simp only [hmask, BitVec.and_or_distrib_left, and_fieldMask, opField, rsv0Field, rsv1Field,
    rsv2Field]

/-- A decoded word matches its command's row. -/
theorem and_opcodeMask_of_decode {w : CmdWord} {i : Instr} (h : decode w = .ok i) :
    w &&& opcodeMask = opcodeMatch i := by
  unfold decode at h
  split at h
  · cases h
  next hrsv =>
    push Not at hrsv
    obtain ⟨h0, h1, h2⟩ := hrsv
    rw [and_opcodeMask, h0, h1, h2]
    split at h
    next hop => cases h; rw [hop]; rfl
    next hop => cases h; rw [hop]; rfl
    next hop => cases h; rw [hop]; rfl
    next hop => cases h; rw [hop]; rfl
    next hop => cases h; rw [hop]; rfl
    next => cases h

/-! ### What a performed command writes -/

/-- What performing a command writes besides the response: the last state is `s` after the writes to
the generator registers (10_state.md R36 to R39). -/
inductive GeneratorWrite (s : State) : Instr → State → Prop
  | nothing (i : Instr) : GeneratorWrite s i s
  | start {n k : Nat} (present : s.params.hasGen = true) (valid : ¬ConfigError n k) :
      GeneratorWrite s (.gstart n k) (startSequence n k s)
  | finish (present : s.params.hasGen = true) (active : s.genSt = .active)
      (atEnd : nextElement s.genN s.genK s.genCur = none) :
      GeneratorWrite s .gnext (finishSequence s)
  | advance {v : Word32} (present : s.params.hasGen = true) (active : s.genSt = .active)
      (successor : nextElement s.genN s.genK s.genCur = some v) :
      GeneratorWrite s .gnext (advanceSequence v s)

/-- `t` is `u` with a response posted, its data 0 unless its status is OK (60_exceptions.md R200,
R201). -/
def Posts (u t : State) : Prop :=
  ∃ status data, t = respond status data u ∧ (status ≠ .ok → data = 0)

theorem posts_ok (data : Word32) (u : State) : Posts u (respond .ok data u) :=
  ⟨.ok, data, rfl, fun h => absurd rfl h⟩

theorem posts_noData (status : Status) (u : State) : Posts u (respond status 0 u) :=
  ⟨status, 0, rfl, fun _ => rfl⟩

/-- BINOM, RANK and UNRANK post a response that is the same in every state with the same table, and
write nothing else (10_state.md R41; 20_memory.md R67). -/
theorem exec_tableOnly {i : Instr} {s s' t : State} (hi : usesTableOnly i = true)
    (hbtab : s.btab = s'.btab) (h : exec i s = .next t) :
    ∃ status data, (status ≠ .ok → data = 0) ∧ t = respond status data s ∧
      exec i s' = .next (respond status data s') := by
  cases i with
  | binom row col =>
    obtain ⟨herr, rfl⟩ | ⟨hok, v, hv, rfl⟩ := execBinom_cases h
    · exact ⟨.errConfig, 0, fun _ => rfl, rfl, if_pos herr⟩
    · refine ⟨.ok, v, fun h => absurd rfl h, rfl, ?_⟩
      simp only [exec, execBinom, if_neg hok, ← hbtab, hv, answer]
  | rank n k b =>
    obtain ⟨herr, rfl⟩ | ⟨hok, herr, rfl⟩ | ⟨hok, hfit, total, hw, rfl⟩ := execRank_cases h
    · exact ⟨.errConfig, 0, fun _ => rfl, rfl, if_pos herr⟩
    · refine ⟨.errInput, 0, fun _ => rfl, rfl, ?_⟩
      simp only [exec, execRank, if_neg hok, if_pos herr, raiseStatus_eq]
    · refine ⟨.ok, BitVec.ofNat 32 total, fun h => absurd rfl h, rfl, ?_⟩
      simp only [exec, execRank, if_neg hok, if_neg hfit, ← hbtab, hw, answer, Option.map_some]
  | unrank n k r =>
    obtain ⟨herr, rfl⟩ | ⟨hok, count, hc, ⟨hge, rfl⟩ | ⟨hlt, b, hw, rfl⟩⟩ := execUnrank_cases h
    · exact ⟨.errConfig, 0, fun _ => rfl, rfl, if_pos herr⟩
    · refine ⟨.errInput, 0, fun _ => rfl, rfl, ?_⟩
      simp only [exec, execUnrank, if_neg hok, ← hbtab, hc, ge_iff_le, if_pos hge, raiseStatus_eq]
    · refine ⟨.ok, b, fun h => absurd rfl h, rfl, ?_⟩
      simp only [exec, execUnrank, if_neg hok, ← hbtab, hc, ge_iff_le, if_neg hlt.not_ge, hw,
        answer]
  | gstart n k => cases hi
  | gnext => cases hi

theorem posts_of_exec_tableOnly {i : Instr} {s t : State} (hi : usesTableOnly i = true)
    (h : exec i s = .next t) : Posts s t := by
  obtain ⟨status, data, hdata, ht, -⟩ := exec_tableOnly hi rfl h
  exact ⟨status, data, ht, hdata⟩

/-- Everything a command can do when it goes on: its writes to the generator registers, and one
response. -/
theorem exec_cases {i : Instr} {s t : State} (h : exec i s = .next t) :
    ∃ u, GeneratorWrite s i u ∧ Posts u t := by
  cases i with
  | binom row col => exact ⟨s, .nothing _, posts_of_exec_tableOnly rfl h⟩
  | rank n k b => exact ⟨s, .nothing _, posts_of_exec_tableOnly rfl h⟩
  | unrank n k r => exact ⟨s, .nothing _, posts_of_exec_tableOnly rfl h⟩
  | gstart n k =>
    obtain ⟨-, rfl⟩ | ⟨-, -, rfl⟩ | ⟨hgen, hok, rfl⟩ := execGstart_cases h
    · exact ⟨s, .nothing _, posts_noData ..⟩
    · exact ⟨s, .nothing _, posts_noData ..⟩
    · exact ⟨_, .start hgen hok, posts_ok ..⟩
  | gnext =>
    obtain ⟨-, rfl⟩ | ⟨-, -, rfl⟩ | ⟨-, -, rfl⟩ | ⟨hgen, hact, hend, rfl⟩ |
      ⟨hgen, hact, v, hsucc, rfl⟩ := execGnext_cases h
    · exact ⟨s, .nothing _, posts_noData ..⟩
    · exact ⟨s, .nothing _, posts_noData ..⟩
    · exact ⟨s, .nothing _, posts_noData ..⟩
    · exact ⟨_, .finish hgen hact hend, posts_noData ..⟩
    · exact ⟨_, .advance hgen hact hsucc, posts_ok ..⟩

/-- Performing a word writes what its command writes, nothing for an illegal word, and posts one
response. -/
theorem runWord_writes {w : CmdWord} {s t : State} (h : runWord w s = .next t) :
    ∃ u, (u = s ∨ ∃ i, decode w = .ok i ∧ GeneratorWrite s i u) ∧ Posts u t := by
  obtain ⟨i, hi, hexec⟩ | ⟨e, -, rfl⟩ := runWord_cases h
  · obtain ⟨u, hu, ht⟩ := exec_cases hexec
    exact ⟨u, .inr ⟨i, hi, hu⟩, ht⟩
  · exact ⟨s, .inl rfl, posts_noData ..⟩

theorem Posts.ifSt_eq {u t : State} (h : Posts u t) : t.ifSt = .resp := by
  obtain ⟨status, data, rfl, -⟩ := h
  rfl

theorem Posts.generatorRegisters_eq {u t : State} (h : Posts u t) :
    generatorRegisters t = generatorRegisters u := by
  obtain ⟨status, data, rfl, -⟩ := h
  rfl

/-- No command reads the interface's registers: a response posted before it leaves no trace. -/
theorem exec_respond (i : Instr) (status : Status) (data : Word32) (s : State) :
    exec i (respond status data s) = exec i s := by
  cases i with
  | binom row col => rfl
  | rank n k b => rfl
  | unrank n k r => rfl
  | gstart n k => rfl
  | gnext => rfl

/-! ### A clock edge without reset, one equation per phase, and the ports (R43, R44) -/

section WithoutReset
variable {s : State} (hrst : (currentPins s).rst = false)
include hrst

theorem step_of_offer (hphase : s.ifSt = .ready) (hvalid : (currentPins s).cmdValid = true) :
    step s = .next (passEdge (acceptCommand (currentPins s).cmdWord s)) := by
  simp [step, clockEdge, hrst, hphase, hvalid]

theorem step_of_no_offer (hphase : s.ifSt = .ready) (hvalid : (currentPins s).cmdValid = false) :
    step s = .next (passEdge s) := by
  simp [step, clockEdge, hrst, hphase, hvalid]

theorem step_of_due {w : CmdWord} (hphase : s.ifSt = .busy w 0) :
    step s = runWord w (passEdge s) := by
  simp [step, clockEdge, hrst, hphase]

theorem step_of_wait {w : CmdWord} {m : Nat} (hphase : s.ifSt = .busy w (m + 1)) :
    step s = .next (passEdge { s with ifSt := .busy w m }) := by
  simp [step, clockEdge, hrst, hphase]

theorem step_of_taken (hphase : s.ifSt = .resp) (hready : (currentPins s).rspReady = true) :
    step s = .next (passEdge (releaseResponse s)) := by
  simp [step, clockEdge, hrst, hphase, hready]

theorem step_of_not_taken (hphase : s.ifSt = .resp) (hready : (currentPins s).rspReady = false) :
    step s = .next (passEdge s) := by
  simp [step, clockEdge, hrst, hphase, hready]

end WithoutReset

theorem cmdReady_iff (s : State) :
    cmdReady s = true ↔ s.ifSt = .ready ∧ (currentPins s).rst = false := by
  simp [cmdReady]

theorem rspValid_iff (s : State) : rspValid s = true ↔ s.ifSt = .resp := decide_eq_true_iff

theorem cmdReady_eq_false {s : State} (h : s.ifSt ≠ .ready) : cmdReady s = false :=
  Bool.eq_false_iff.mpr fun hready => h ((cmdReady_iff s).mp hready).1

theorem acceptedWord_eq_none {s : State} (h : cmdReady s = false) : acceptedWord s = none := by
  simp [acceptedWord, h]

/-! ### Which edges write the generator registers (R36 to R39) -/

/-- Away from reset, the generator registers are written only on the edge that performs a command,
and as that command writes them. -/
theorem step_generatorRegisters {s t : State} (h : step s = .next t)
    (hrst : (currentPins s).rst = false) :
    generatorRegisters t = generatorRegisters s ∨
      ∃ w i u, s.ifSt = .busy w 0 ∧ decode w = .ok i ∧ GeneratorWrite (passEdge s) i u ∧
        generatorRegisters t = generatorRegisters u := by
  obtain ⟨hreset, -⟩ | ⟨-, ⟨-, -, rfl⟩ | ⟨-, -, rfl⟩ | ⟨w, hphase, hrun⟩ | ⟨w, m, -, rfl⟩ |
    ⟨-, -, rfl⟩ | ⟨-, -, rfl⟩⟩ := step_cases h
  · exact absurd hreset (by simp [hrst])
  · exact .inl rfl
  · exact .inl rfl
  · obtain ⟨u, rfl | ⟨i, hi, hu⟩, ht⟩ := runWord_writes hrun
    · exact .inl ht.generatorRegisters_eq
    · exact .inr ⟨w, i, u, hphase, hi, hu, ht.generatorRegisters_eq⟩
  · exact .inl rfl
  · exact .inl rfl
  · exact .inl rfl

theorem GeneratorWrite.opcodeMatch_of_config_changed {s u : State} {i : Instr}
    (h : GeneratorWrite s i u) (hne : u.genN ≠ s.genN ∨ u.genK ≠ s.genK) : opcodeMatch i = 4 := by
  cases h with
  | nothing => simp at hne
  | start => rfl
  | finish => simp at hne
  | advance => simp at hne

theorem GeneratorWrite.opcodeMatch_of_changed {s u : State} {i : Instr} (h : GeneratorWrite s i u)
    (hne : u.genSt ≠ s.genSt ∨ u.genCur ≠ s.genCur) : opcodeMatch i = 4 ∨ opcodeMatch i = 5 := by
  cases h with
  | nothing => simp at hne
  | start => exact .inl rfl
  | finish => exact .inr rfl
  | advance => exact .inr rfl

/-! ### The bits of NextPattern (43_generator.md R173) -/

/-- Taking 1 away borrows up to the lowest set bit. -/
theorem getLsbD_sub_one {v : Word32} {p : Nat} (hclear : ∀ i < p, v.getLsbD i = false)
    (hset : v.getLsbD p = true) {i : Nat} (hi : i < 32) :
    (v - 1).getLsbD i = if p < i then v.getLsbD i else decide (i < p) := by
  have hborrow : (∃ j < i, v.getLsbD j = true) ↔ p < i := by
    constructor
    · rintro ⟨j, hj, hv⟩
      by_contra hle
      simp [hclear j (by omega)] at hv
    · exact fun hp => ⟨p, hp, hset⟩
  rw [show v - 1 = ~~~(-v) from (BitVec.not_neg v).symm, BitVec.getLsbD_not, BitVec.getLsbD_neg,
    decide_eq_true hi]
  simp only [hborrow]
  rcases Nat.lt_trichotomy p i with hp | rfl | hp
  · simp [hp]
  · simp [hset]
  · simp [hclear i hp, hp, Nat.not_lt_of_gt hp]

/-- Adding 1 carries up to the lowest clear bit. -/
theorem getLsbD_add_one {t : Word32} {q : Nat} (hset : ∀ i < q, t.getLsbD i = true)
    (hclear : t.getLsbD q = false) {i : Nat} (hi : i < 32) :
    (t + 1).getLsbD i = if q < i then t.getLsbD i else decide (i = q) := by
  have hcarry : (∃ j < i, (~~~t).getLsbD j = true) ↔ q < i := by
    constructor
    · rintro ⟨j, hj, hv⟩
      by_contra hle
      simp [hset j (by omega)] at hv
    · exact fun hq => ⟨q, hq, by simp [hclear]; omega⟩
  rw [show t + 1 = -~~~t by rw [BitVec.neg_eq_not_add, BitVec.not_not]; rfl, BitVec.getLsbD_neg,
    BitVec.getLsbD_not, decide_eq_true hi]
  simp only [hcarry]
  rcases Nat.lt_trichotomy q i with hq | rfl | hq
  · simp [hq]
  · simp [hclear]
  · simp [hset i hq, Nat.not_lt_of_gt hq, hq.ne]

/-- The lowest set bits of `v` in a row are its bits p to q - 1 (43_generator.md R178). -/
structure LowestRun (v : Word32) (p q : Nat) : Prop where
  lt : p < q
  clear_below : ∀ i < p, v.getLsbD i = false
  set : ∀ i, p ≤ i → i < q → v.getLsbD i = true
  clear_end : v.getLsbD q = false

/-- The lowest run begins at the trailing zeros' end. -/
theorem LowestRun.ctz32_eq {v : Word32} {p q : Nat} (h : LowestRun v p q) : ctz32 v = p := by
  have hp := h.set p le_rfl h.lt
  have hp32 : p < 32 := BitVec.lt_of_getLsbD hp
  rcases Nat.lt_trichotomy (ctz32 v) p with hlt | heq | hgt
  · have := getLsbD_ctz32 (hlt.trans hp32)
    simp [h.clear_below _ hlt] at this
  · exact heq
  · simp [getLsbD_of_lt_ctz32 hgt] at hp

/-- A nonzero value has a lowest run; it ends at bit 32 at the latest. -/
theorem exists_lowestRun {v : Word32} (hv : v ≠ 0#32) : ∃ q, LowestRun v (ctz32 v) q := by
  have hp := ctz32_lt_of_ne_zero hv
  have hend : ∃ q, ctz32 v < q ∧ v.getLsbD q = false := ⟨32, hp, BitVec.getLsbD_of_ge v 32 le_rfl⟩
  obtain ⟨hlt, hclear⟩ := Nat.find_spec hend
  refine ⟨Nat.find hend, hlt, fun i => getLsbD_of_lt_ctz32, fun i hi hiq => ?_, hclear⟩
  rcases Nat.eq_or_lt_of_le hi with rfl | hgt
  · exact getLsbD_ctz32 hp
  · simpa [hgt] using Nat.find_min hend hiq

/-- A valid bitmap whose lowest run reaches up to bit n is LAST. -/
theorem LowestRun.eq_lastBitmap {n k p q : Nat} {v : Word32} (h : LowestRun v p q) (hn : n ≤ 32)
    (hv : BitmapValid n k v) (hq : n ≤ q) : v = lastBitmap n k := by
  have hhigh : ∀ i, n ≤ i → v.getLsbD i = false :=
    fun i => getLsbD_of_toNat_lt ((bitmapValid_iff ..).mp hv).1
  have hpn : p < n := by
    by_contra hle
    simpa [h.set p le_rfl h.lt] using hhigh p (by omega)
  have hbits : ∀ i, v.getLsbD i = decide (p ≤ i ∧ i < n) := fun i => by
    by_cases hip : i < p
    · simp [h.clear_below i hip]; omega
    by_cases hin : i < n
    · simp [h.set i (by omega) (by omega)]; omega
    · simp [hhigh i (by omega)]; omega
  have hk : n - p = k := by
    rw [← bitsBelow_of_bitmapValid hn hv, bitsBelow_of_block hpn.le hbits, Nat.min_self]
  refine BitVec.eq_of_getLsbD_eq fun i _ => ?_
  rw [hbits, getLsbD_lastBitmap (by omega) hn, decide_eq_decide]
  omega

/-- Any other valid bitmap has a clear bit above its lowest run and below bit n. -/
theorem exists_lowestRun_lt {n k : Nat} {v : Word32} (hn : n ≤ 32)
    (hv : BitmapValid n k v) (hlast : v ≠ lastBitmap n k) :
    ∃ q, q < n ∧ LowestRun v (ctz32 v) q := by
  have hne : v ≠ 0#32 := by
    rintro rfl
    have hk : k = 0 := by
      rw [← bitsBelow_of_bitmapValid hn hv,
        bitsBelow_eq_of_clear n.zero_le fun _ _ => BitVec.getLsbD_zero, bitsBelow_zero]
    exact hlast (by simp [hk, lastBitmap])
  obtain ⟨q, hrun⟩ := exists_lowestRun hne
  exact ⟨q, Nat.lt_of_not_le fun hq => hlast (hrun.eq_lastBitmap hn hv hq), hrun⟩

/-- `t` of NextPattern: everything below the end of the lowest run is set. -/
theorem LowestRun.getLsbD_filled {v : Word32} {p q : Nat} (h : LowestRun v p q) {i : Nat}
    (hi : i < 32) : (v ||| (v - 1)).getLsbD i = (decide (i < q) || v.getLsbD i) := by
  obtain ⟨hpq, hbelow, hset, -⟩ := h
  rw [BitVec.getLsbD_or, getLsbD_sub_one hbelow (hset p le_rfl hpq) hi]
  by_cases hip : i < p
  · simp [hip, hip.trans hpq, Nat.not_lt_of_gt hip]
  · by_cases hiq : i < q
    · simp [hset i (Nat.le_of_not_lt hip) hiq, hiq]
    · simp [hip, hiq]

/-- `~t & (t + 1)` is the lowest clear bit of `t`. -/
theorem getLsbD_lowest_clear {t : Word32} {q : Nat} (hset : ∀ i < q, t.getLsbD i = true)
    (hclear : t.getLsbD q = false) (hq : q < 32) (i : Nat) :
    (~~~t &&& (t + 1)).getLsbD i = decide (i = q) := by
  rcases Nat.lt_or_ge i 32 with hi | hi
  · rw [BitVec.getLsbD_and, BitVec.getLsbD_not, getLsbD_add_one hset hclear hi]
    rcases Nat.lt_trichotomy i q with hlt | rfl | hgt
    · simp [hset i hlt, hlt.ne]
    · rw [hclear]; simp [hi]
    · simp [hgt, hgt.ne']
  · rw [BitVec.getLsbD_of_ge _ i hi, decide_eq_false (hq.trans_le hi).ne']

/-- NextPattern clears the lowest run, sets the bit above it, and puts the run's other set bits at
the bottom. -/
theorem LowestRun.getLsbD_nextPattern {v : Word32} {p q : Nat} (h : LowestRun v p q) (hq : q < 32)
    {i : Nat} (hi : i < 32) :
    (nextPattern v).getLsbD i =
      if q < i then v.getLsbD i else decide (i = q ∨ i < q - p - 1) := by
  have hfilled : ∀ i < 32, (v ||| (v - 1)).getLsbD i = (decide (i < q) || v.getLsbD i) :=
    fun i => h.getLsbD_filled
  rw [nextPattern, h.ctz32_eq]
  generalize v ||| (v - 1) = t at hfilled
  have hset : ∀ i < q, t.getLsbD i = true := fun i hiq => by simp [hfilled i (hiq.trans hq), hiq]
  have hclear : t.getLsbD q = false := by simp [hfilled q hq, h.clear_end]
  have hmark := getLsbD_lowest_clear hset hclear hq
  generalize ~~~t &&& (t + 1) = m at hmark
  have hlow : ((m - 1) >>> (p + 1)).getLsbD i = decide (i < q - p - 1) := by
    rw [BitVec.getLsbD_ushiftRight]
    rcases Nat.lt_or_ge (p + 1 + i) 32 with hj | hj
    · have hbelow : ∀ j < q, m.getLsbD j = false := fun j hjq => by simp [hmark, hjq.ne]
      rw [getLsbD_sub_one hbelow (by simp [hmark]) hj, hmark]
      split
      next hgt => rw [decide_eq_decide]; omega
      next => rw [decide_eq_decide]; omega
    · rw [BitVec.getLsbD_of_ge _ _ hj, eq_comm, decide_eq_false_iff_not]
      omega
  rw [BitVec.getLsbD_or, getLsbD_add_one hset hclear hi, hlow, hfilled i hi]
  by_cases hiq : q < i
  · simp [hiq, Nat.not_lt_of_gt hiq]; omega
  · simp [hiq]

/-! ### NextPattern keeps a bitmap valid -/

/-- Two values with as many set bits below `lo` and the same bits from there on have as many in
all. -/
theorem bitsBelow_congr_from {v w : Word32} {lo m : Nat} (hlo : lo ≤ m)
    (hbelow : bitsBelow v lo = bitsBelow w lo)
    (hbits : ∀ i, lo ≤ i → i < m → v.getLsbD i = w.getLsbD i) : bitsBelow v m = bitsBelow w m := by
  induction m, hlo using Nat.le_induction with
  | base => exact hbelow
  | succ m hm ih =>
    rw [bitsBelow_succ, bitsBelow_succ, hbits m hm (Nat.lt_succ_self m),
      ih fun i hi him => hbits i hi (Nat.lt_succ_of_lt him)]

theorem LowestRun.bitsBelow_end {v : Word32} {p q : Nat} (h : LowestRun v p q) (hq : q ≤ 32) :
    bitsBelow v q = q - p := by
  rw [← bitsBelow_of_bitmapValid hq (lastBitmap_valid (Nat.sub_le q p) hq)]
  refine bitsBelow_congr_from q.zero_le rfl fun i _ hiq => ?_
  rw [getLsbD_lastBitmap (Nat.sub_le q p) hq]
  by_cases hip : i < p
  · rw [h.clear_below i hip, eq_comm, decide_eq_false_iff_not]; omega
  · rw [h.set i (Nat.le_of_not_lt hip) hiq, eq_comm, decide_eq_true_iff]; omega

theorem LowestRun.bitsBelow_nextPattern {v : Word32} {p q : Nat} (h : LowestRun v p q)
    (hq : q < 32) : bitsBelow (nextPattern v) q = q - p - 1 := by
  have hle : q - p - 1 ≤ q := (Nat.sub_le ..).trans (Nat.sub_le ..)
  rw [← bitsBelow_of_bitmapValid hq.le (firstBitmap_valid hle hq.le)]
  refine bitsBelow_congr_from q.zero_le rfl fun i _ hiq => ?_
  rw [h.getLsbD_nextPattern hq (hiq.trans hq), if_neg hiq.not_gt, firstBitmap_eq_lastBitmap,
    getLsbD_lastBitmap le_rfl (hle.trans hq.le), decide_eq_decide]
  omega

/-- The bit set above the run makes up for the one the run loses. -/
theorem LowestRun.popcount_nextPattern {v : Word32} {p q : Nat} (h : LowestRun v p q)
    (hq : q < 32) : popcount (nextPattern v) = popcount v := by
  refine bitsBelow_congr_from (Nat.succ_le_of_lt hq) ?_ fun i hqi hi => ?_
  · have hpq := h.lt
    rw [bitsBelow_succ, bitsBelow_succ, h.bitsBelow_end hq.le, h.bitsBelow_nextPattern hq,
      h.getLsbD_nextPattern hq hq, h.clear_end, if_neg (Nat.lt_irrefl q),
      decide_eq_true (.inl rfl), Bool.toNat_true, Bool.toNat_false]
    omega
  · rw [h.getLsbD_nextPattern hq hi, if_pos (Nat.lt_of_succ_le hqi)]

/-- NextPattern of a valid bitmap other than LAST is a valid bitmap (43_generator.md R176). -/
theorem nextPattern_valid {n k : Nat} {v : Word32} (hn : n ≤ 32) (hv : BitmapValid n k v)
    (hlast : v ≠ lastBitmap n k) : BitmapValid n k (nextPattern v) := by
  obtain ⟨q, hqn, hrun⟩ := exists_lowestRun_lt hn hv hlast
  have hq : q < 32 := hqn.trans_le hn
  obtain ⟨hlt, hpop⟩ := (bitmapValid_iff ..).mp hv
  refine ⟨BitVec.eq_of_getLsbD_eq fun i _ => ?_, (hrun.popcount_nextPattern hq).trans hpop⟩
  rw [BitVec.getLsbD_ushiftRight]
  refine Eq.trans ?_ BitVec.getLsbD_zero.symm
  rcases Nat.lt_or_ge (n + i) 32 with hi | hi
  · rw [hrun.getLsbD_nextPattern hq hi, if_pos (hqn.trans_le (Nat.le_add_right n i))]
    exact getLsbD_of_toNat_lt hlt (Nat.le_add_right n i)
  · exact BitVec.getLsbD_of_ge _ _ hi

/-! ### The invariant, one lemma per register operation (R40, R200, R201) -/

theorem reset_inv : State.reset.Inv where
  rom := rfl
  generator := fun h => absurd rfl h
  response := ⟨by decide, fun _ => rfl⟩
  absent := fun h => by cases h

section Inv
variable {s : State} (h : s.Inv)
include h

theorem passEdge_inv : (passEdge s).Inv := ⟨h.rom, h.generator, h.response, h.absent⟩

theorem withPhase_inv (p : IfPhase) : { s with ifSt := p }.Inv :=
  ⟨h.rom, h.generator, h.response, h.absent⟩

theorem resetRegisters_inv : (resetRegisters s).Inv where
  rom := h.rom
  generator := fun hne => absurd rfl hne
  response := reset_inv.response
  absent := fun _ => ⟨rfl, rfl, rfl, rfl⟩

end Inv

theorem statusCode_le (status : Status) : (statusCode status).toNat ≤ 5 := by
  cases status <;> decide

theorem Posts.inv {u t : State} (hp : Posts u t) (h : u.Inv) : t.Inv := by
  obtain ⟨status, data, rfl, hdata⟩ := hp
  exact ⟨h.rom, h.generator,
    ⟨statusCode_le status, fun hne => hdata fun hok => hne (congrArg statusCode hok)⟩, h.absent⟩

theorem nextElement_eq_none {n k : Field6} {cur : Word32} (hv : SequenceValid n k cur)
    (h : nextElement n k cur = none) : cur = lastBitmap n.toNat k.toNat := by
  rw [nextElement, if_pos hv] at h
  by_contra hne
  rw [if_neg hne] at h
  cases h

/-- Inside a sequence, the element GNEXT delivers belongs to the same sequence. -/
theorem sequenceValid_nextElement {n k : Field6} {cur v : Word32} (hv : SequenceValid n k cur)
    (h : nextElement n k cur = some v) : SequenceValid n k v := by
  rw [nextElement, if_pos hv] at h
  split at h
  · cases h
  next hlast =>
    cases h
    obtain ⟨⟨hk, hn⟩, hcur⟩ := hv
    exact ⟨⟨hk, hn⟩, nextPattern_valid hn hcur hlast⟩

/-- GSTART on a valid configuration begins a sequence: nothing is lost in the 6-bit registers. -/
theorem sequenceValid_first {n k : Nat} (h : ¬ConfigError n k) :
    SequenceValid (BitVec.ofNat 6 n) (BitVec.ofNat 6 k) (firstBitmap k) := by
  obtain ⟨hn, hk⟩ := not_or.mp h
  have hn : n ≤ 32 := Nat.le_of_not_lt hn
  have hk : k ≤ n := Nat.le_of_not_lt hk
  have hn6 : (BitVec.ofNat 6 n).toNat = n := Nat.mod_eq_of_lt (by omega)
  have hk6 : (BitVec.ofNat 6 k).toNat = k := Nat.mod_eq_of_lt (by omega)
  rw [SequenceValid, hn6, hk6]
  exact ⟨⟨hk, hn⟩, firstBitmap_valid hk hn⟩

theorem GeneratorWrite.inv {s u : State} {i : Instr} (h : GeneratorWrite s i u) (hs : s.Inv) :
    u.Inv := by
  have habsent : s.params.hasGen = true → s.params.hasGen ≠ false := by simp
  cases h with
  | nothing => exact hs
  | start present valid =>
    exact ⟨hs.rom, fun _ => ⟨sequenceValid_first valid, fun hdone => by cases hdone⟩, hs.response,
      fun hno => absurd hno (habsent present)⟩
  | finish present active atEnd =>
    obtain ⟨hv, -⟩ := hs.generator (by simp [active])
    exact ⟨hs.rom, fun _ => ⟨hv, fun _ => nextElement_eq_none hv atEnd⟩, hs.response,
      fun hno => absurd hno (habsent present)⟩
  | advance present active successor =>
    obtain ⟨hv, -⟩ := hs.generator (by simp [active])
    exact ⟨hs.rom, fun _ => ⟨sequenceValid_nextElement hv successor,
      fun hdone => by rw [advanceSequence_genSt, active] at hdone; cases hdone⟩, hs.response,
      fun hno => absurd hno (habsent present)⟩

theorem runWord_inv {w : CmdWord} {s t : State} (hs : s.Inv) (h : runWord w s = .next t) :
    t.Inv := by
  obtain ⟨u, rfl | ⟨i, -, hu⟩, ht⟩ := runWord_writes h
  · exact ht.inv hs
  · exact ht.inv (hu.inv hs)

/-! ### The obligations -/

/-- Settles O55: each register operation keeps the invariant; the one that needs an argument is
GNEXT's successor, which `nextPattern_valid` shows to be a bitmap of the same sequence. -/
theorem everyStepKeepsConsistency : Obligations.EveryStepKeepsConsistency := by
  intro s t hs h
  obtain ⟨-, rfl⟩ | ⟨-, ⟨-, -, rfl⟩ | ⟨-, -, rfl⟩ | ⟨w, -, hrun⟩ | ⟨w, m, -, rfl⟩ |
    ⟨-, -, rfl⟩ | ⟨-, -, rfl⟩⟩ := step_cases h
  · exact resetRegisters_inv (passEdge_inv hs)
  · exact passEdge_inv (withPhase_inv hs _)
  · exact passEdge_inv hs
  · exact runWord_inv (passEdge_inv hs) hrun
  · exact passEdge_inv (withPhase_inv hs _)
  · exact passEdge_inv (withPhase_inv hs _)
  · exact passEdge_inv hs

/-- Settles O35: the response is a function of the table. -/
theorem tableCommandsIgnoreTheGenerator : Obligations.TableCommandsIgnoreTheGenerator := by
  intro i s s' t hi hbtab h
  obtain ⟨status, data, -, rfl, h'⟩ := exec_tableOnly hi hbtab h
  exact h'

/-- Settles O36: all that such a command leaves is a response, which no command reads. -/
theorem tableCommandsDoNotDisturbTheSequence :
    Obligations.TableCommandsDoNotDisturbTheSequence := by
  intro i s t hi h
  obtain ⟨status, data, rfl, -⟩ := posts_of_exec_tableOnly hi h
  exact ⟨exec_respond .gnext status data s, fun n k => exec_respond (.gstart n k) status data s⟩

/-- Settles O38: a word whose command writes the generator registers matches GSTART's or GNEXT's
row. -/
theorem onlyGeneratorCommandsWriteTheGenerator :
    Obligations.OnlyGeneratorCommandsWriteTheGenerator := by
  intro s t h hrst
  obtain hsame | ⟨w, i, u, hphase, hi, hu, hregs⟩ := step_generatorRegisters h hrst
  · obtain ⟨hst, hn, hk, hcur⟩ := GeneratorRegisters.mk.inj hsame
    exact ⟨fun hne => absurd hne (by simp [hn, hk]), fun hne => absurd hne (by simp [hst, hcur])⟩
  · obtain ⟨hst, hn, hk, hcur⟩ := GeneratorRegisters.mk.inj hregs
    rw [hst, hn, hk, hcur]
    have hmatch := and_opcodeMask_of_decode hi
    exact ⟨fun hne => ⟨w, hphase, hmatch.trans (hu.opcodeMatch_of_config_changed hne)⟩,
      fun hne => ⟨w, hphase, by rw [hmatch]; exact hu.opcodeMatch_of_changed hne⟩⟩

/-- Settles O48: the equation of `step` for each phase. -/
theorem interfacePhaseMovesAsRuled : Obligations.InterfacePhaseMovesAsRuled := by
  intro s hrst
  refine ⟨fun hp hv => ⟨_, step_of_offer hrst hp hv⟩, fun hp hv => step_of_no_offer hrst hp hv,
    fun w m hp => step_of_wait hrst hp, fun w t hp h => ?_, fun hp hr => step_of_taken hrst hp hr,
    fun hp hr => step_of_not_taken hrst hp hr, fun hp => ?_⟩
  · rw [step_of_due hrst hp] at h
    obtain ⟨u, -, ht⟩ := runWord_writes h
    exact ht.ifSt_eq
  · exact ⟨cmdReady_eq_false hp, acceptedWord_eq_none (cmdReady_eq_false hp)⟩

/-- Settles O46: BTAB's entries by the table being Pascal's triangle, the rest by the reset state as
it stands. -/
theorem resetHoldsTheResetValues : Obligations.ResetHoldsTheResetValues :=
  ⟨rfl, rfl, rfl, rfl, rfl, rfl, rfl, rfl, rfl, fun _ => rfl,
    fun _ _ hj hi => romRead_romContent hj hi⟩

/-- Settles O49, by the definition of each port. -/
theorem outputPortsFollowTheRegisters : Obligations.OutputPortsFollowTheRegisters := fun s =>
  ⟨cmdReady_iff s, rspValid_iff s, fun hvalid => ⟨if_pos hvalid, if_pos hvalid⟩⟩

/-- Settles O54, clause by clause: the phase is IDLE, the status OK, and the generator present. -/
theorem resetStateIsConsistent : Obligations.ResetStateIsConsistent := reset_inv

end Sys2Proof.Machine

/-! PROOFS for 20_memory.md: every command word is answered (R64), commands take effect one after
another, whole (R65, R66, R70), and GSTART is idempotent (R67). The runs of 70_reset_and_hazards.md R241
are sequences of such commands. -/

namespace Sys2Proof.Machine

/-! ### A read of the intact table, and the two walks over it (R60, R64) -/

/-- An entry of the triangle fits its 32 bits (40_binomial_table.md R101). -/
theorem toNat_ofNat_choose {i : Nat} (hi : i ≤ 32) (j : Nat) :
    (BitVec.ofNat 32 (Nat.choose i j)).toNat = Nat.choose i j := by
  refine Nat.mod_eq_of_lt ?_
  rcases Nat.eq_zero_or_pos i with rfl | hpos
  · exact (Nat.choose_le_two_pow 0 j).trans_lt (by decide)
  · exact (Nat.choose_lt_two_pow i j hpos).trans_le (Nat.pow_le_pow_right (by decide) hi)

/-- On an edge of the triangle RankWalk ends. -/
theorem rankWalk_of_choose_eq_one {row col : Nat} (hcol : col ≤ row) (hrow : row ≤ 32)
    (hone : Nat.choose row col = 1) (b : Word32) (total : Nat) :
    rankWalk romContent b row col total = some total := by
  cases row <;> simp [rankWalk, romRead_romContent hcol hrow, hone]

/-- Inside the triangle RankWalk follows the bit below its row. -/
theorem rankWalk_inside {row c : Nat} (hcol : c + 1 ≤ row) (hrow : row + 1 ≤ 32)
    (hne : Nat.choose (row + 1) (c + 1) ≠ 1) (b : Word32) (total : Nat) :
    rankWalk romContent b (row + 1) (c + 1) total =
      if b.getLsbD row then rankWalk romContent b row (c + 1) (total + Nat.choose row c)
      else rankWalk romContent b row c total := by
  have hentry : BitVec.ofNat 32 (Nat.choose (row + 1) (c + 1)) ≠ 1 := fun h =>
    hne ((toNat_ofNat_choose hrow _).symm.trans (congrArg BitVec.toNat h))
  have hread : romRead romContent row c = some (BitVec.ofNat 32 (Nat.choose row c)) :=
    romRead_romContent (by omega) (by omega)
  simp only [rankWalk, romRead_romContent (show c + 1 ≤ row + 1 by omega) hrow, Option.bind_some,
    if_neg hentry, hread, toNat_ofNat_choose (show row ≤ 32 by omega)]

/-- RankWalk from a cursor of the triangle reads only inside it, and adds less than the entry at its
cursor (41_rank_encoder.md R133). -/
theorem exists_rankWalk (b : Word32) {row col : Nat} (hcol : col ≤ row) (hrow : row ≤ 32)
    (total : Nat) :
    ∃ r, rankWalk romContent b row col total = some r ∧ r < total + Nat.choose row col := by
  induction row generalizing col total with
  | zero =>
    have hone : Nat.choose 0 col = 1 := by rw [Nat.le_zero.mp hcol, Nat.choose_self]
    exact ⟨total, rankWalk_of_choose_eq_one hcol hrow hone b total, by omega⟩
  | succ row ih =>
    by_cases hone : Nat.choose (row + 1) col = 1
    · exact ⟨total, rankWalk_of_choose_eq_one hcol hrow hone b total, by omega⟩
    · cases col with
      | zero => exact absurd (Nat.choose_zero_right _) hone
      | succ c =>
        have hinside : c + 1 ≤ row := by
          refine Nat.le_of_lt_succ (lt_of_le_of_ne hcol fun heq => hone ?_)
          rw [heq, Nat.choose_self]
        rw [rankWalk_inside hinside hrow hone]
        split
        · obtain ⟨r, hr, hlt⟩ := ih hinside (by omega) (total + Nat.choose row c)
          exact ⟨r, hr, by rw [Nat.choose_succ_succ']; omega⟩
        · obtain ⟨r, hr, hlt⟩ := ih (show c ≤ row by omega) (by omega) total
          exact ⟨r, hr, by rw [Nat.choose_succ_succ']; omega⟩

/-- UnrankWalk at a column above 0 compares the remaining rank with the entry beside its cursor. -/
theorem unrankWalk_inside {row c : Nat} (hcol : c ≤ row) (hrow : row ≤ 32) (rem : Nat)
    (res : Word32) :
    unrankWalk romContent (row + 1) (c + 1) rem res =
      if rem < Nat.choose row c then unrankWalk romContent row c rem res
      else unrankWalk romContent row (c + 1) (rem - Nat.choose row c) (setBit res row) := by
  simp only [unrankWalk, romRead_romContent hcol hrow, Option.bind_some, toNat_ofNat_choose hrow]

/-- While the remaining rank is below the entry at its cursor, UnrankWalk reads only inside the
triangle (42_rank_decoder.md R153). -/
theorem exists_unrankWalk {row col rem : Nat} (hrow : row ≤ 32) (hrem : rem < Nat.choose row col)
    (res : Word32) : ∃ b, unrankWalk romContent row col rem res = some b := by
  induction row generalizing col rem res with
  | zero => exact ⟨res, rfl⟩
  | succ row ih =>
    cases col with
    | zero => exact ih (by omega) (by simpa using hrem) _
    | succ c =>
      have hcol : c ≤ row := by
        by_contra hgt
        rw [Nat.choose_eq_zero_of_lt (by omega)] at hrem
        exact Nat.not_lt_zero _ hrem
      rw [unrankWalk_inside hcol (by omega)]
      rw [Nat.choose_succ_succ'] at hrem
      split
      · exact ih (by omega) ‹_› _
      · exact ih (by omega) (by omega) _

/-! ### Performing a command word is total (30_encoding.md R95) -/

theorem configValid_of_not_configError {n k : Nat} (h : ¬ConfigError n k) : k ≤ n ∧ n ≤ 32 :=
  ⟨Nat.le_of_not_lt fun hlt => h (.inr hlt), Nat.le_of_not_lt fun hlt => h (.inl hlt)⟩

theorem exists_execBinom {s : State} (hrom : s.RomIntact) (i j : Nat) :
    ∃ t, execBinom i j s = .next t := by
  unfold execBinom
  split
  · exact ⟨_, rfl⟩
  next hok =>
    obtain ⟨hj, hi⟩ := configValid_of_not_configError hok
    rw [hrom, romRead_romContent hj hi]
    exact ⟨_, rfl⟩

theorem exists_execRank {s : State} (hrom : s.RomIntact) (n k : Nat) (b : Word32) :
    ∃ t, execRank n k b s = .next t := by
  unfold execRank
  split
  · exact ⟨_, rfl⟩
  next hok =>
    split
    · exact ⟨_, rfl⟩
    · obtain ⟨-, hn⟩ := configValid_of_not_configError hok
      obtain ⟨r, hr, -⟩ := exists_rankWalk b (Nat.sub_le n k) hn 0
      rw [hrom, hr]
      exact ⟨_, rfl⟩

theorem exists_execUnrank {s : State} (hrom : s.RomIntact) (n k r : Nat) :
    ∃ t, execUnrank n k r s = .next t := by
  unfold execUnrank
  split
  · exact ⟨_, rfl⟩
  next hok =>
    obtain ⟨hk, hn⟩ := configValid_of_not_configError hok
    rw [hrom, romRead_romContent hk hn]
    dsimp only
    rw [toNat_ofNat_choose hn]
    split
    · exact ⟨_, rfl⟩
    next hr =>
      rw [← Nat.choose_symm hk, ge_iff_le, Nat.not_le] at hr
      obtain ⟨b, hb⟩ := exists_unrankWalk hn hr 0
      rw [hb]
      exact ⟨_, rfl⟩

theorem exists_execGstart (n k : Nat) (s : State) : ∃ t, execGstart n k s = .next t := by
  unfold execGstart
  split
  · split <;> exact ⟨_, rfl⟩
  · exact ⟨_, rfl⟩

theorem exists_execGnext (s : State) : ∃ t, execGnext s = .next t := by
  unfold execGnext
  split
  · split
    · exact ⟨_, rfl⟩
    · exact ⟨_, rfl⟩
    · split <;> exact ⟨_, rfl⟩
  · exact ⟨_, rfl⟩

/-- Every command goes on where BTAB holds its content. -/
theorem exists_exec {s : State} (hrom : s.RomIntact) (i : Instr) : ∃ t, exec i s = .next t := by
  cases i with
  | binom row col => exact exists_execBinom hrom row col
  | rank n k b => exact exists_execRank hrom n k b
  | unrank n k r => exact exists_execUnrank hrom n k r
  | gstart n k => exact exists_execGstart n k s
  | gnext => exact exists_execGnext s

/-- Every word, legal or not, is answered where BTAB holds its content. -/
theorem exists_runWord {s : State} (hrom : s.RomIntact) (w : CmdWord) :
    ∃ t, runWord w s = .next t := by
  unfold runWord
  split
  next i _ => exact exists_exec hrom i
  · exact ⟨_, rfl⟩

/-! ### GSTART and GNEXT, one equation per case -/

section Generator
variable {s : State}

theorem execGstart_of_absent {n k : Nat} (hgen : s.params.hasGen = false) :
    execGstart n k s = .next (raiseStatus .errIllegal s) :=
  if_neg (Bool.eq_false_iff.mp hgen)

theorem execGstart_of_configError {n k : Nat} (hgen : s.params.hasGen = true)
    (herr : ConfigError n k) : execGstart n k s = .next (raiseStatus .errConfig s) :=
  (if_pos hgen).trans (if_pos herr)

theorem execGstart_of_valid {n k : Nat} (hgen : s.params.hasGen = true) (hok : ¬ConfigError n k) :
    execGstart n k s = .next (respond .ok (firstBitmap k) (startSequence n k s)) :=
  (if_pos hgen).trans (if_neg hok)

theorem execGnext_of_absent (hgen : s.params.hasGen = false) :
    execGnext s = .next (raiseStatus .errIllegal s) :=
  if_neg (Bool.eq_false_iff.mp hgen)

theorem execGnext_of_idle (hgen : s.params.hasGen = true) (hst : s.genSt = .idle) :
    execGnext s = .next (raiseStatus .errState s) := by
  simp [execGnext, hgen, hst]

theorem execGnext_of_done (hgen : s.params.hasGen = true) (hst : s.genSt = .done) :
    execGnext s = .next (respond .sequenceEnd 0 s) := by
  simp [execGnext, hgen, hst]

theorem execGnext_of_end (hgen : s.params.hasGen = true) (hst : s.genSt = .active)
    (hend : nextElement s.genN s.genK s.genCur = none) :
    execGnext s = .next (respond .sequenceEnd 0 (finishSequence s)) := by
  simp [execGnext, hgen, hst, hend]

theorem execGnext_of_successor {v : Word32} (hgen : s.params.hasGen = true)
    (hst : s.genSt = .active) (hsucc : nextElement s.genN s.genK s.genCur = some v) :
    execGnext s = .next (respond .ok v (advanceSequence v s)) := by
  simp [execGnext, hgen, hst, hsucc]

end Generator

/-! ### What a command reads: the parameters, BTAB and the generator registers -/

/-- All of a state that a command can read. -/
def commandView (s : State) : Config.Params × List (List Word32) × GeneratorRegisters :=
  (s.params, s.btab, generatorRegisters s)

theorem commandView_eq_iff {s s' : State} :
    commandView s = commandView s' ↔
      s.params = s'.params ∧ s.btab = s'.btab ∧ s.genSt = s'.genSt ∧ s.genN = s'.genN ∧
        s.genK = s'.genK ∧ s.genCur = s'.genCur := by
  simp [commandView, generatorRegisters]

/-- `t`, with the host's schedule and the edge count of `s`. -/
def withPortsOf (s t : State) : State := { t with host := s.host, edge := s.edge }

theorem respond_of_commandView_eq {s s' : State} (h : commandView s = commandView s')
    (status : Status) (data : Word32) :
    respond status data s' = withPortsOf s' (respond status data s) := by
  obtain ⟨hparams, hbtab, hst, hn, hk, hcur⟩ := commandView_eq_iff.mp h
  simp [withPortsOf, respond, hparams, hbtab, hst, hn, hk, hcur]

/-- No command reads or moves the host's schedule or the edge count. -/
theorem exec_withPortsOf {i : Instr} {s t : State} (p : State) (h : exec i s = .next t) :
    exec i (withPortsOf p s) = .next (withPortsOf p t) := by
  have htable (hi : usesTableOnly i = true) :
      exec i (withPortsOf p s) = .next (withPortsOf p t) := by
    obtain ⟨status, data, -, rfl, h'⟩ :=
      exec_tableOnly hi (show s.btab = (withPortsOf p s).btab from rfl) h
    exact h'
  cases i with
  | binom row col => exact htable rfl
  | rank n k b => exact htable rfl
  | unrank n k r => exact htable rfl
  | gstart n k =>
    obtain ⟨hgen, rfl⟩ | ⟨hgen, herr, rfl⟩ | ⟨hgen, hok, rfl⟩ := execGstart_cases h
    · exact execGstart_of_absent hgen
    · exact execGstart_of_configError hgen herr
    · exact execGstart_of_valid hgen hok
  | gnext =>
    obtain ⟨hgen, rfl⟩ | ⟨hgen, hst, rfl⟩ | ⟨hgen, hst, rfl⟩ | ⟨hgen, hst, hend, rfl⟩ |
      ⟨hgen, hst, v, hsucc, rfl⟩ := execGnext_cases h
    · exact execGnext_of_absent hgen
    · exact execGnext_of_idle hgen hst
    · exact execGnext_of_done hgen hst
    · exact execGnext_of_end hgen hst hend
    · exact execGnext_of_successor hgen hst hsucc

/-- No word reads the interface's registers, as no command does. -/
theorem runWord_respond (w : CmdWord) (status : Status) (data : Word32) (s : State) :
    runWord w (respond status data s) = runWord w s := by
  unfold runWord
  split
  next i _ => exact exec_respond i status data s
  · rfl

/-- No word reads IF_ST. -/
theorem runWord_withPhase (w : CmdWord) (p : IfPhase) (s : State) :
    runWord w { s with ifSt := p } = runWord w s :=
  (runWord_respond w .ok 0 { s with ifSt := p }).symm.trans (runWord_respond w .ok 0 s)

theorem runWord_withPortsOf {w : CmdWord} {s t : State} (p : State) (h : runWord w s = .next t) :
    runWord w (withPortsOf p s) = .next (withPortsOf p t) := by
  obtain ⟨i, hi, hexec⟩ | ⟨e, he, rfl⟩ := runWord_cases h
  · simp only [runWord, hi, exec_withPortsOf p hexec]
  · simp only [runWord, he]; rfl

/-- In two states it sees alike, a word does the same. -/
theorem runWord_congr {w : CmdWord} {s s' t : State} (hview : commandView s = commandView s')
    (h : runWord w s = .next t) : runWord w s' = .next (withPortsOf s' t) := by
  rw [← runWord_respond w .ok 0, respond_of_commandView_eq hview]
  exact runWord_withPortsOf s' ((runWord_respond ..).trans h)

/-- Performing a word leaves the host's schedule and the edge count. -/
theorem withPortsOf_of_runWord {w : CmdWord} {s t : State} (h : runWord w s = .next t) :
    withPortsOf s t = t :=
  Host.Outcome.next.inj ((runWord_congr rfl h).symm.trans h)

/-! ### What the channels do on one edge without reset (R65) -/

theorem responseTaken_eq_false {s : State} (h : s.ifSt ≠ .resp) : responseTaken s = false := by
  simp [responseTaken, rspValid, h]

theorem delivered_eq_nil {s : State} (h : responseTaken s = false) (o : Option CmdWord) :
    delivered o s = [] := by
  cases o <;> simp [delivered, h]

section WithoutReset
variable {s : State} (hrst : (currentPins s).rst = false)
include hrst

theorem responseTaken_iff :
    responseTaken s = true ↔ s.ifSt = .resp ∧ (currentPins s).rspReady = true := by
  simp [responseTaken, rspValid, hrst]

theorem acceptedWord_of_offer (hphase : s.ifSt = .ready) (hvalid : (currentPins s).cmdValid = true) :
    acceptedWord s = some (currentPins s).cmdWord := by
  simp [acceptedWord, cmdReady, hrst, hphase, hvalid]

theorem outstandingAfter_of_not_taken (h : responseTaken s = false) (o : Option CmdWord) :
    outstandingAfter o s = (acceptedWord s).or o := by
  simp [outstandingAfter, hrst, h]

end WithoutReset

theorem acceptedWord_of_no_offer {s : State} (h : (currentPins s).cmdValid = false) :
    acceptedWord s = none := by
  simp [acceptedWord, h]

theorem acceptedWord_of_not_ready {s : State} (h : s.ifSt ≠ .ready) : acceptedWord s = none :=
  acceptedWord_eq_none (cmdReady_eq_false h)

theorem outstandingAfter_of_taken {s : State} (h : responseTaken s = true) (o : Option CmdWord) :
    outstandingAfter o s = none := by
  simp [outstandingAfter, h]

theorem delivered_of_taken {s : State} (hphase : s.ifSt = .resp) (h : responseTaken s = true)
    (w : CmdWord) : delivered (some w) s = [⟨w, s.rspStatus, s.rspData⟩] := by
  simp [delivered, h, rspStatusPort, rspDataPort, rspValid, hphase]

/-! ### The block follows a history (R66, R70) -/

/-- The block in state `s`, with the command `o` outstanding, is as the commands completed before it
left it: they left `h`, and a posted response is that of `o` performed in `h`. -/
inductive Follows (h : State) : Option CmdWord → State → Prop
  | ready {s : State} (phase : s.ifSt = .ready) (view : commandView s = commandView h) :
      Follows h none s
  | busy {s : State} {w : CmdWord} {wait : Nat} (phase : s.ifSt = .busy w wait)
      (view : commandView s = commandView h) : Follows h (some w) s
  | resp {s u : State} {w : CmdWord} (phase : s.ifSt = .resp) (performed : runWord w h = .next u)
      (view : commandView s = commandView u) (status : s.rspStatus = u.rspStatus)
      (data : s.rspData = u.rspData) : Follows h (some w) s

theorem step_unique {s t u : State} (ht : step s = .next t) (hu : step s = .next u) : t = u :=
  Host.Outcome.next.inj (ht.symm.trans hu)

/-- What an edge without reset does to a block that follows a history: either nothing is delivered and
it follows the same history, or the outstanding command's response is, and the history has one command
more. -/
theorem Follows.edge_cases {h s t : State} {o : Option CmdWord} (hs : Follows h o s)
    (hrst : (currentPins s).rst = false) (hstep : step s = .next t) :
    (delivered o s = [] ∧ Follows h (outstandingAfter o s) t ∧
        o.toList ++ (acceptedWord s).toList = (outstandingAfter o s).toList) ∨
      ∃ w u, o = some w ∧ runWord w h = .next u ∧ acceptedWord s = none ∧
        outstandingAfter o s = none ∧ delivered o s = [⟨w, u.rspStatus, u.rspData⟩] ∧
        Follows u none t := by
  cases hs with
  | ready phase view =>
    have hquiet : responseTaken s = false := responseTaken_eq_false (by simp [phase])
    refine .inl ⟨delivered_eq_nil hquiet _, ?_⟩
    rw [outstandingAfter_of_not_taken hrst hquiet]
    cases hvalid : (currentPins s).cmdValid with
    | true =>
      obtain rfl := step_unique (step_of_offer hrst phase hvalid) hstep
      rw [acceptedWord_of_offer hrst phase hvalid]
      exact ⟨.busy rfl view, rfl⟩
    | false =>
      obtain rfl := step_unique (step_of_no_offer hrst phase hvalid) hstep
      rw [acceptedWord_of_no_offer hvalid]
      exact ⟨.ready phase view, rfl⟩
  | @busy _ w wait phase view =>
    have hquiet : responseTaken s = false := responseTaken_eq_false (by simp [phase])
    refine .inl ⟨delivered_eq_nil hquiet _, ?_⟩
    rw [outstandingAfter_of_not_taken hrst hquiet, acceptedWord_of_not_ready (by simp [phase])]
    refine ⟨?_, rfl⟩
    cases wait with
    | zero =>
      have hrun := (step_of_due hrst phase).symm.trans hstep
      obtain ⟨u, -, hposts⟩ := runWord_writes hrun
      have hview : commandView (passEdge s) = commandView h := view
      exact .resp hposts.ifSt_eq (runWord_congr hview hrun) rfl rfl rfl
    | succ wait =>
      obtain rfl := step_unique (step_of_wait hrst phase) hstep
      exact .busy rfl view
  | @resp _ u w phase performed view status data =>
    have hnone : acceptedWord s = none := acceptedWord_of_not_ready (by simp [phase])
    cases hready : (currentPins s).rspReady with
    | true =>
      have htaken := (responseTaken_iff hrst).mpr ⟨phase, hready⟩
      obtain rfl := step_unique (step_of_taken hrst phase hready) hstep
      refine .inr ⟨w, u, rfl, performed, hnone, outstandingAfter_of_taken htaken _, ?_,
        .ready rfl view⟩
      rw [delivered_of_taken phase htaken, status, data]
    | false =>
      have hquiet : responseTaken s = false := by
        simp [Bool.eq_false_iff, responseTaken_iff hrst, hready]
      obtain rfl := step_unique (step_of_not_taken hrst phase hready) hstep
      refine .inl ⟨delivered_eq_nil hquiet _, ?_⟩
      rw [outstandingAfter_of_not_taken hrst hquiet, hnone]
      exact ⟨.resp phase performed view status data, rfl⟩

/-! ### The triples over any number of edges (R70) -/

theorem history_cons {w : CmdWord} {h u : State} (hrun : runWord w h = .next u)
    (ws : List CmdWord) :
    history (w :: ws) h = ⟨w, u.rspStatus, u.rspData⟩ :: history ws u := by
  simp [history, hrun]

theorem length_history_le (ws : List CmdWord) (h : State) : (history ws h).length ≤ ws.length := by
  induction ws generalizing h with
  | nil => exact Nat.le_refl 0
  | cons w ws ih =>
    unfold history
    split
    · exact Nat.succ_le_succ (ih _)
    · exact Nat.zero_le _

/-- The host's port values pass by one after another, whatever the block does. -/
theorem step_host {s t : State} (hstep : step s = .next t) : t.host = s.host.tail := by
  obtain ⟨-, rfl⟩ | ⟨-, ⟨-, -, rfl⟩ | ⟨-, -, rfl⟩ | ⟨w, -, hrun⟩ | ⟨w, m, -, rfl⟩ |
    ⟨-, -, rfl⟩ | ⟨-, -, rfl⟩⟩ := step_cases hstep
  · rfl
  · rfl
  · rfl
  · exact (congrArg State.host (withPortsOf_of_runWord hrun)).symm
  · rfl
  · rfl
  · rfl

theorem currentPins_rst_eq_false {s : State} {m : Nat}
    (h : ∀ p ∈ s.host.take (m + 1), p.rst = false) : (currentPins s).rst = false := by
  unfold currentPins
  cases hhost : s.host with
  | nil => rfl
  | cons p rest => exact h p (by simp [hhost])

theorem observe_succ {s t : State} (hstep : step s = .next t) (m : Nat) (o : Option CmdWord) :
    observe (m + 1) o s =
      ((acceptedWord s).toList ++ (observe m (outstandingAfter o s) t).1,
        delivered o s ++ (observe m (outstandingAfter o s) t).2) := by
  simp [observe, hstep]

/-- The triples delivered are those of a history, all but at most the last. -/
def AllButLast (triples hist : List Observation) : Prop :=
  triples <+: hist ∧ hist.length ≤ triples.length + 1

/-- Of the outstanding command alone nothing need be delivered. -/
theorem allButLast_nil (o : Option CmdWord) (h : State) : AllButLast [] (history o.toList h) :=
  ⟨List.nil_prefix, (length_history_le ..).trans (by cases o <;> simp)⟩

theorem AllButLast.cons {triples hist : List Observation} (h : AllButLast triples hist)
    (x : Observation) : AllButLast (x :: triples) (x :: hist) := by
  obtain ⟨hinitial, hlength⟩ := h
  exact ⟨List.cons_prefix_cons.mpr ⟨rfl, hinitial⟩, Nat.succ_le_succ hlength⟩

/-- A block that follows a history delivers what the history of the outstanding command and the words
accepted after it gives. -/
theorem Follows.observe_allButLast (edges : Nat) {h s : State} {o : Option CmdWord}
    (hs : Follows h o s) (hhost : ∀ p ∈ s.host, p.rst = false) :
    AllButLast (observe edges o s).2 (history (o.toList ++ (observe edges o s).1) h) := by
  induction edges generalizing h o s with
  | zero => simpa [observe] using allButLast_nil o h
  | succ m ih =>
    cases hstep : step s with
    | next t =>
      have hrst : (currentPins s).rst = false :=
        currentPins_rst_eq_false (m := 0) fun p hp => hhost p (List.mem_of_mem_take hp)
      have hhost' : ∀ p ∈ t.host, p.rst = false := fun p hp =>
        hhost p (List.mem_of_mem_tail (step_host hstep ▸ hp))
      rw [observe_succ hstep]
      obtain ⟨hnothing, ht, hwords⟩ | ⟨w, u, rfl, hrun, hnone, hout, htriple, ht⟩ :=
        hs.edge_cases hrst hstep
      · simpa only [hnothing, List.nil_append, ← List.append_assoc, hwords] using ih ht hhost'
      · rw [hnone, hout, htriple]
        exact history_cons hrun _ ▸ (ih ht hhost').cons _
    | fault r => simpa [observe, hstep] using allButLast_nil o h
    | refused r => simpa [observe, hstep] using allButLast_nil o h

/-! ### The record of a run (R70; 70_reset_and_hazards.md R241) -/

theorem runWords_cons {w : CmdWord} {h u : State} (hrun : runWord w h = .next u)
    (ws : List CmdWord) : runWords (w :: ws) h = runWords ws u := by
  simp [runWords, hrun]

/-- The run's triples are the whole history of its words from `h`, and its final generator registers
those they leave. -/
def RecordsHistoryFrom (h : State) (run : RunRecord) : Prop :=
  run.triples = history (run.triples.map (·.word)) h ∧
    ∃ t, runWords (run.triples.map (·.word)) h = .next t ∧ run.final = generatorRegisters t

theorem RecordsHistoryFrom.cons {h u : State} {w : CmdWord} {run : RunRecord}
    (hrun : runWord w h = .next u) (hrest : RecordsHistoryFrom u run) :
    RecordsHistoryFrom h
      { run with triples := [⟨w, u.rspStatus, u.rspData⟩] ++ run.triples } := by
  obtain ⟨htriples, t, ht, hfinal⟩ := hrest
  refine ⟨?_, t, (runWords_cons hrun _).trans ht, hfinal⟩
  exact (congrArg (List.cons _) htriples).trans (history_cons hrun _).symm

/-- At the end of a run nothing is outstanding, and the registers are as the history left them. -/
theorem Follows.recordsHistory_of_ended {h s : State} {o : Option CmdWord} (hs : Follows h o s)
    (hend : runEnded s = true) : RecordsHistoryFrom h ⟨[], generatorRegisters s⟩ := by
  cases hs with
  | ready phase view => exact ⟨rfl, h, rfl, congrArg (fun seen => seen.2.2) view⟩
  | busy phase => simp [runEnded, phase] at hend
  | resp phase => simp [runEnded, phase] at hend

/-- Where a block that follows a history comes to the end of its run, the record is the rest of that
history. -/
theorem Follows.recordsHistory {edges : Nat} {h s : State} {o : Option CmdWord} {run : RunRecord}
    (hs : Follows h o s) (hrun : recordFrom edges o s = some run) : RecordsHistoryFrom h run := by
  induction edges generalizing h o s run with
  | zero =>
    unfold recordFrom at hrun
    split at hrun
    next hend => cases hrun; exact hs.recordsHistory_of_ended hend
    · cases hrun
  | succ m ih =>
    obtain ⟨hend, rfl⟩ | ⟨-, hrst, t, rest, hstep, hrest, rfl⟩ := recordFrom_cases hrun
    · exact hs.recordsHistory_of_ended hend
    · obtain ⟨hnothing, ht, -⟩ | ⟨w, u, rfl, hperf, -, hout, htriple, ht⟩ :=
        hs.edge_cases hrst hstep
      · rw [hnothing]
        exact ih ht hrest
      · rw [htriple]
        rw [hout] at hrest
        exact (ih ht hrest).cons hperf

/-- A run, however long its reset is held, follows the history that begins in the reset state. -/
theorem recordsHistory_of_recordRun {edges : Nat} {s : State} {run : RunRecord}
    (h : recordRun edges s = some run) :
    RecordsHistoryFrom { State.reset with params := s.params, btab := s.btab } run := by
  induction edges generalizing s with
  | zero => cases h
  | succ m ih =>
    obtain ⟨-, ⟨-, hheld⟩ | ⟨-, hfrom⟩⟩ := recordRun_cases h
    · exact ih (s := resetRegisters (passEdge s)) hheld
    · have hfollows : Follows { State.reset with params := s.params, btab := s.btab } none
          (resetRegisters (passEdge s)) := .ready rfl rfl
      exact hfollows.recordsHistory hfrom

/-! ### A command from its acceptance to its response, whatever its wait is (R65, R66) -/

theorem clockEdges_succ {s t : State} (hstep : step s = .next t) (m : Nat) :
    clockEdges (m + 1) s = clockEdges m t := by
  simp [clockEdges, hstep]

theorem clockEdges_one (s : State) : clockEdges 1 s = step s := by
  unfold clockEdges
  cases step s <;> rfl

/-- `m` edges go by. -/
def passEdges (m : Nat) (s : State) : State :=
  { s with host := s.host.drop m, edge := s.edge + m }

theorem passEdges_one (s : State) : passEdges 1 s = passEdge s := by
  simp [passEdges, passEdge]

theorem passEdges_passEdge (m : Nat) (s : State) :
    passEdges m (passEdge s) = passEdges (m + 1) s := by
  simp [passEdges, passEdge, Nat.add_assoc, Nat.add_comm 1]

theorem rst_eq_false_of_mem_take_tail {host : List Pins} {m : Nat}
    (h : ∀ p ∈ host.take (m + 1), p.rst = false) : ∀ p ∈ host.tail.take m, p.rst = false := by
  intro p hp
  rw [← List.drop_one, List.take_drop] at hp
  exact h p (List.mem_of_mem_drop (Nat.add_comm 1 _ ▸ hp))

/-- A command in progress is performed when its wait is over, and nothing else happens before. -/
theorem clockEdges_busy {w : CmdWord} {wait : Nat} {s : State} (hphase : s.ifSt = .busy w wait)
    (hhost : ∀ p ∈ s.host.take (wait + 1), p.rst = false) :
    clockEdges (wait + 1) s = runWord w (passEdges (wait + 1) s) := by
  induction wait generalizing s with
  | zero =>
    rw [clockEdges_one, step_of_due (currentPins_rst_eq_false hhost) hphase, passEdges_one]
  | succ m ih =>
    have hrest := rst_eq_false_of_mem_take_tail hhost
    calc clockEdges (m + 1 + 1) s
      _ = clockEdges (m + 1) (passEdge { s with ifSt := .busy w m }) :=
        clockEdges_succ (step_of_wait (currentPins_rst_eq_false hhost) hphase) _
      _ = runWord w (passEdges (m + 1 + 1) { s with ifSt := .busy w m }) := by
        rw [ih rfl hrest, passEdges_passEdge]
      _ = runWord w (passEdges (m + 1 + 1) s) :=
        runWord_withPhase w (.busy w m) (passEdges (m + 1 + 1) s)

/-- A command offered to a READY block is performed when its wait is over, and nothing else happens
before. -/
theorem clockEdges_offer {s : State} {m : Nat} (hphase : s.ifSt = .ready)
    (hvalid : (currentPins s).cmdValid = true)
    (hm : m = Config.latencyBeyondOne (currentPins s).cmdWord s.edge)
    (hhost : ∀ p ∈ s.host.take (m + 2), p.rst = false) :
    clockEdges (m + 2) s = runWord (currentPins s).cmdWord (passEdges (m + 2) s) := by
  let w := (currentPins s).cmdWord
  calc clockEdges (m + 2) s
    _ = clockEdges (m + 1) (passEdge (acceptCommand w s)) :=
      clockEdges_succ (step_of_offer (currentPins_rst_eq_false hhost) hphase hvalid) _
    _ = runWord w (passEdges (m + 1) (passEdge (acceptCommand w s))) :=
      clockEdges_busy (hm ▸ rfl) (rst_eq_false_of_mem_take_tail hhost)
    _ = runWord w (passEdges (m + 2) (acceptCommand w s)) := by rw [passEdges_passEdge]
    _ = runWord w (passEdges (m + 2) s) :=
      runWord_withPhase w (.busy w _) (passEdges (m + 2) s)

/-! ### A host for every sequence of commands (70_reset_and_hazards.md R241, R242) -/

/-- The host asserts reset. -/
def Pins.reset : Pins := { Pins.idle with rst := true }

/-- The host offers a command. -/
def Pins.offering (w : CmdWord) : Pins := { Pins.idle with cmdValid := true, cmdWord := w }

/-- The host takes a response. -/
def Pins.taking : Pins := { Pins.idle with rspReady := true }

/-- The host's schedule for one command with this wait: it is offered, waited for, performed, and its
response taken. -/
def commandSchedule (w : CmdWord) (wait : Nat) : List Pins :=
  Pins.offering w :: (List.replicate wait Pins.idle ++ [Pins.idle, Pins.taking])

/-- `s` when the edge that performs a command accepted now has gone by, with this host from there on. -/
def dueState (w : CmdWord) (s : State) (host : List Pins) : State :=
  { s with host := host, edge := s.edge + 1 + Config.latencyBeyondOne w s.edge + 1 }

/-- An edge that delivers nothing adds nothing to a record. -/
theorem recordFrom_quiet {o : Option CmdWord} {s t : State} (m : Nat) (hend : runEnded s = false)
    (hrst : (currentPins s).rst = false) (hstep : step s = .next t)
    (hquiet : responseTaken s = false) :
    recordFrom (m + 1) o s = recordFrom m ((acceptedWord s).or o) t := by
  rw [recordFrom_step m o s t hend hrst hstep, delivered_eq_nil hquiet,
    outstandingAfter_of_not_taken hrst hquiet]
  exact Option.map_id'

/-- The edge that takes the response to a command adds that command's triple. -/
theorem recordFrom_taken {w : CmdWord} {t : State} {rest : List Pins} (m : Nat)
    (hphase : t.ifSt = .resp) (hhost : t.host = Pins.taking :: rest) :
    recordFrom (m + 1) (some w) t =
      (recordFrom m none (passEdge (releaseResponse t))).map fun r =>
        { r with triples := [⟨w, t.rspStatus, t.rspData⟩] ++ r.triples } := by
  have hpins : currentPins t = Pins.taking := by simp [currentPins, hhost]
  have hrst : (currentPins t).rst = false := by rw [hpins]; rfl
  have hready : (currentPins t).rspReady = true := by rw [hpins]; rfl
  have htaken := (responseTaken_iff hrst).mpr ⟨hphase, hready⟩
  rw [recordFrom_step m _ t _ (runEnded_of_not_ready (by simp [hphase])) hrst
    (step_of_taken hrst hphase hready), outstandingAfter_of_taken htaken,
    delivered_of_taken hphase htaken]

/-- With its schedule, a command is accepted, performed and its response taken. -/
theorem recordFrom_command {w : CmdWord} {s t : State} {rest : List Pins} (m : Nat)
    (hphase : s.ifSt = .ready)
    (hhost : s.host = commandSchedule w (Config.latencyBeyondOne w s.edge) ++ rest)
    (hrun : runWord w (dueState w s (Pins.taking :: rest)) = .next t) :
    recordFrom (Config.latencyBeyondOne w s.edge + (m + 2) + 1) none s =
      (recordFrom m none (passEdge (releaseResponse t))).map fun r =>
        { r with triples := [⟨w, t.rspStatus, t.rspData⟩] ++ r.triples } := by
  have hpins : currentPins s = Pins.offering w := by simp [currentPins, hhost, commandSchedule]
  have hrst : (currentPins s).rst = false := by rw [hpins]; rfl
  have hvalid : (currentPins s).cmdValid = true := by rw [hpins]; rfl
  have hend : runEnded s = false := by simp [runEnded, hhost, commandSchedule, Pins.offering]
  have hwaiting : (passEdge (acceptCommand w s)).host =
      List.replicate (Config.latencyBeyondOne w s.edge) Pins.idle ++
        (Pins.idle :: Pins.taking :: rest) := by
    simp [hhost, commandSchedule]
  rw [recordFrom_quiet _ hend hrst (step_of_offer hrst hphase hvalid)
    (responseTaken_eq_false (by simp [hphase])), acceptedWord_of_offer hrst hphase hvalid, hpins]
  change recordFrom _ (some w) (passEdge (acceptCommand w s)) = _
  rw [recordFrom_wait w (m + 2) _ _ _ rfl hwaiting]
  have hdue := (runWord_withPhase w (.busy w 0) _).trans hrun
  obtain ⟨u, -, hposts⟩ := runWord_writes hrun
  rw [recordFrom_quiet (m + 1) (runEnded_of_not_ready (by simp)) rfl
    ((step_of_due rfl rfl).trans hdue) (responseTaken_eq_false (by simp))]
  exact recordFrom_taken m hposts.ifSt_eq
    (congrArg State.host (withPortsOf_of_runWord hrun)).symm

theorem runWord_btab {w : CmdWord} {s t : State} (h : runWord w s = .next t) : t.btab = s.btab := by
  obtain ⟨u, hu, status, data, rfl, -⟩ := runWord_writes h
  obtain rfl | ⟨i, -, hwrite⟩ := hu
  · rfl
  · cases hwrite <;> rfl

/-- From READY, a host can have any command words performed one after another and recorded. -/
theorem exists_recordFrom (words : List CmdWord) {s : State} (hrom : s.RomIntact)
    (hphase : s.ifSt = .ready) :
    ∃ (host : List Pins) (edges : Nat) (run : RunRecord),
      (host.headD Pins.idle).rst = false ∧
        recordFrom edges none { s with host := host } = some run ∧
          run.triples.map (·.word) = words := by
  induction words generalizing s with
  | nil =>
    have hend : runEnded { s with host := [] } = true := by simp [runEnded, hphase]
    exact ⟨[], 0, _, rfl, recordFrom_ended 0 none _ hend, rfl⟩
  | cons w ws ih =>
    obtain ⟨t, ht⟩ := exists_runWord (s := dueState w s []) hrom w
    obtain ⟨rest, edges, run, -, hrun, hwords⟩ :=
      ih (s := passEdge (releaseResponse (withPortsOf (dueState w s []) t)))
        ((runWord_btab ht).trans hrom) rfl
    let host := commandSchedule w (Config.latencyBeyondOne w s.edge) ++ rest
    have hview : commandView (dueState w s []) =
        commandView (dueState w s (Pins.taking :: rest)) := rfl
    have hdue := runWord_congr hview ht
    have hcommand := recordFrom_command (s := { s with host := host }) edges hphase rfl hdue
    exact ⟨host, _, _, rfl, hcommand.trans (congrArg _ hrun), congrArg (List.cons w) hwords⟩

/-- After a reset of one edge, a run is what follows. -/
theorem recordRun_of_reset {s : State} (m : Nat) (hrst : (currentPins s).rst = true)
    (hnext : (currentPins (resetRegisters (passEdge s))).rst = false) :
    recordRun (m + 1) s = recordFrom m none (resetRegisters (passEdge s)) := by
  have hstep : step s = .next (resetRegisters (passEdge s)) := if_pos hrst
  simp [recordRun, hrst, hstep, hnext]

/-! ### The obligations -/

/-- Settles O52: the wait passes edge by edge, and performing a word is total where BTAB holds its
content, since the walks stay in the triangle. -/
theorem acceptedCommandIsAnswered : Obligations.AcceptedCommandIsAnswered := by
  intro s p rest m hs hphase hhost hrst hvalid hm hwait
  have hpins : currentPins s = p := by simp [currentPins, hhost]
  have hpass : passEdges (m + 2) s =
      { s with host := rest.drop (m + 1), edge := s.edge + (m + 2) } := by
    simp [passEdges, hhost]
  have hedges : clockEdges (m + 2) s = runWord p.cmdWord (passEdges (m + 2) s) := by
    rw [← hpins] at hvalid hm ⊢
    exact clockEdges_offer hphase hvalid hm (by simpa [hhost, hrst] using hwait)
  obtain ⟨t, ht⟩ := exists_runWord (s := passEdges (m + 2) s) hs.rom p.cmdWord
  obtain ⟨u, -, hposts⟩ := runWord_writes ht
  exact ⟨t, hedges.trans ht, hposts.ifSt_eq, hpass ▸ ht⟩

/-- Settles O53: before its first edge, a READY block follows the history of no commands. -/
theorem observationIsTheHistory : Obligations.ObservationIsTheHistory := fun edges _ hphase hhost =>
  (Follows.ready hphase rfl).observe_allButLast edges hhost

/-- Settles O57: after its reset, the block follows the history that begins in the reset state, edge
by edge to the end of the run. -/
theorem runRecordIsTheHistoryFromReset : Obligations.RunRecordIsTheHistoryFromReset := by
  intro edges s run h
  refine ⟨?_, recordsHistory_of_recordRun h⟩
  cases edges with
  | zero => cases h
  | succ m => exact (recordRun_cases h).1

/-- Settles O58: a reset, then for each word in turn the schedule that fits its wait. -/
theorem everyCommandSequenceHasARun : Obligations.EveryCommandSequenceHasARun := by
  intro words s hrom
  obtain ⟨host, edges, run, hrst, hrun, hwords⟩ :=
    exists_recordFrom words (s := resetRegisters (passEdge s)) hrom rfl
  have hreset := recordRun_of_reset (s := { s with host := Pins.reset :: host }) edges rfl hrst
  exact ⟨Pins.reset :: host, edges + 1, run, hreset.trans hrun, hwords⟩

/-- Settles O37: an error leaves the state but for the response, which no command reads, and a started
sequence is started again in the same registers. -/
theorem gstartTwiceIsGstartOnce : Obligations.GstartTwiceIsGstartOnce := by
  intro n k s t h
  obtain ⟨-, rfl⟩ | ⟨-, -, rfl⟩ | ⟨hgen, hok, rfl⟩ := execGstart_cases h
  · exact (exec_respond ..).trans h
  · exact (exec_respond ..).trans h
  · exact execGstart_of_valid hgen hok

end Sys2Proof.Machine

/-! PROOFS for 30_encoding.md: the fields of a command word (R81) and Enc (R91), the decoder (R83 to
R87) and its round trips (R90, R92, R96), and performing an accepted word, which is total (R95). -/

namespace Sys2Proof.Machine

/-! ### The fields of a word, as digits of its number (R81) -/

section Fields
variable (w : CmdWord)

/-- A field of a word is its number shifted down and cut to the field's width. -/
theorem toNat_field (start len : Nat) :
    (w.extractLsb' start len).toNat = w.toNat / 2 ^ start % 2 ^ len := by
  rw [BitVec.extractLsb'_toNat, Nat.shiftRight_eq_div_pow]

theorem opField_eq : opField w = w.toNat / 2 ^ 0 % 2 ^ 4 := toNat_field w 0 4
theorem rsv0Field_eq : rsv0Field w = w.toNat / 2 ^ 4 % 2 ^ 4 := toNat_field w 4 4
theorem nField_eq : nField w = w.toNat / 2 ^ 8 % 2 ^ 6 := toNat_field w 8 6
theorem rsv1Field_eq : rsv1Field w = w.toNat / 2 ^ 14 % 2 ^ 2 := toNat_field w 14 2
theorem kField_eq : kField w = w.toNat / 2 ^ 16 % 2 ^ 6 := toNat_field w 16 6
theorem rsv2Field_eq : rsv2Field w = w.toNat / 2 ^ 22 % 2 ^ 10 := toNat_field w 22 10
theorem toNat_argField : (argField w).toNat = w.toNat / 2 ^ 32 % 2 ^ 32 := toNat_field w 32 32

theorem opField_lt : opField w < 2 ^ 4 := BitVec.isLt _
theorem fieldsFit_fields : FieldsFit (nField w) (kField w) := ⟨BitVec.isLt _, BitVec.isLt _⟩

/-- The three reserved fields of a word are 0 (R85). -/
def ReservedZero : Prop := rsv0Field w = 0 ∧ rsv1Field w = 0 ∧ rsv2Field w = 0

end Fields

/-! ### Enc (R91) -/

section Enc
variable {op n k arg : Nat} (hop : op < 2 ^ 4) (hfit : FieldsFit n k) (harg : arg < 2 ^ 32)
include hop hfit harg

/-- Fields that fit are not cut by the word's width: Enc is the formula of R91 on numbers. -/
theorem toNat_encodeFields :
    (encodeFields op n k arg).toNat = (arg <<< 32) ||| (k <<< 16) ||| (n <<< 8) ||| op := by
  obtain ⟨hn, hk⟩ := hfit
  have uncut {x m : Nat} (h : x * 2 ^ m < 2 ^ 64) :
      (BitVec.ofNat 64 x <<< m).toNat = x <<< m := by
    have hx : x < 2 ^ 64 := lt_of_le_of_lt (Nat.le_mul_of_pos_right x (Nat.two_pow_pos m)) h
    rw [BitVec.toNat_shiftLeft, BitVec.toNat_ofNat, Nat.mod_eq_of_lt hx, Nat.shiftLeft_eq,
      Nat.mod_eq_of_lt h]
  simp only [encodeFields, BitVec.toNat_or]
  rw [uncut (by omega), uncut (by omega), uncut (by omega), BitVec.toNat_ofNat,
    Nat.mod_eq_of_lt (by omega)]

/-- The shifted fields do not overlap, so Enc is their sum. -/
theorem toNat_encodeFields_eq_sum :
    (encodeFields op n k arg).toNat = arg * 2 ^ 32 + k * 2 ^ 16 + n * 2 ^ 8 + op := by
  rw [toNat_encodeFields hop hfit harg]
  obtain ⟨hn, hk⟩ := hfit
  rw [Nat.or_assoc, Nat.or_assoc, ← Nat.shiftLeft_add_eq_or_of_lt (i := 8) (by omega) n,
    ← Nat.shiftLeft_add_eq_or_of_lt (i := 16) (by omega) k,
    ← Nat.shiftLeft_add_eq_or_of_lt (i := 32) (by omega) arg]
  omega

theorem opField_encodeFields : opField (encodeFields op n k arg) = op := by
  rw [opField_eq, toNat_encodeFields_eq_sum hop hfit harg]
  omega

theorem nField_encodeFields : nField (encodeFields op n k arg) = n := by
  rw [nField_eq, toNat_encodeFields_eq_sum hop hfit harg]
  omega

theorem kField_encodeFields : kField (encodeFields op n k arg) = k := by
  rw [kField_eq, toNat_encodeFields_eq_sum hop hfit harg]
  omega

theorem toNat_argField_encodeFields : (argField (encodeFields op n k arg)).toNat = arg := by
  rw [toNat_argField, toNat_encodeFields_eq_sum hop hfit harg]
  omega

theorem reservedZero_encodeFields : ReservedZero (encodeFields op n k arg) := by
  rw [ReservedZero, rsv0Field_eq, rsv1Field_eq, rsv2Field_eq,
    toNat_encodeFields_eq_sum hop hfit harg]
  omega

end Enc

/-- The seven fields are all of a word, so where the reserved ones are 0 the others give it back. -/
theorem encodeFields_fields {w : CmdWord} (h : ReservedZero w) :
    encodeFields (opField w) (nField w) (kField w) (argField w).toNat = w := by
  refine BitVec.eq_of_toNat_eq ?_
  rw [toNat_encodeFields_eq_sum (opField_lt w) (fieldsFit_fields w) (argField w).isLt]
  rw [ReservedZero, rsv0Field_eq, rsv1Field_eq, rsv2Field_eq] at h
  rw [opField_eq, nField_eq, kField_eq, toNat_argField]
  have := w.isLt
  omega

/-! ### The decoder (R83 to R86) -/

/-- The command the fields of a word spell where the reserved ones are 0 (R83, R86): the second
half of `decode`, on fields alone. -/
def commandOfFields (op n k : Nat) (arg : Word32) : Except Illegal Instr :=
  match op with
  | 1 => .ok (.binom n k)
  | 2 => .ok (.rank n k arg)
  | 3 => .ok (.unrank n k arg.toNat)
  | 4 => .ok (.gstart n k)
  | 5 => .ok .gnext
  | _ => .error .reservedOpcode

theorem decode_of_reservedZero {w : CmdWord} (h : ReservedZero w) :
    decode w = commandOfFields (opField w) (nField w) (kField w) (argField w) := by
  obtain ⟨h0, h1, h2⟩ := h
  exact if_neg (by simp [h0, h1, h2])

theorem decode_of_not_reservedZero {w : CmdWord} (h : ¬ReservedZero w) :
    decode w = .error .reservedFieldNonzero := by
  refine if_pos ?_
  rw [ReservedZero] at h
  tauto

/-- A command comes from a word whose reserved fields are 0, and its fields spell it. -/
theorem decode_eq_ok_iff {w : CmdWord} {i : Instr} :
    decode w = .ok i ↔
      ReservedZero w ∧ commandOfFields (opField w) (nField w) (kField w) (argField w) = .ok i := by
  by_cases h : ReservedZero w
  · simp [decode_of_reservedZero h, h]
  · simp [decode_of_not_reservedZero h, h]

theorem commandOfFields_of_reserved {op : Nat} (h : op = 0 ∨ 6 ≤ op) (n k : Nat) (arg : Word32) :
    commandOfFields op n k arg = .error .reservedOpcode := by
  obtain rfl | hop := h
  · rfl
  · obtain ⟨m, rfl⟩ := Nat.exists_eq_add_of_le' hop
    rfl

theorem wellFormed_of_commandOfFields {op n k : Nat} {arg : Word32} {i : Instr}
    (hfit : FieldsFit n k) (h : commandOfFields op n k arg = .ok i) : i.WellFormed = true := by
  unfold commandOfFields at h
  split at h
  · cases h; exact decide_eq_true hfit
  · cases h; exact decide_eq_true hfit
  · cases h; exact decide_eq_true ⟨hfit, arg.isLt⟩
  · cases h; exact decide_eq_true hfit
  · cases h; rfl
  · cases h

theorem decode_of_illegalWord {w : CmdWord} (h : IllegalWord w) : ∃ e, decode w = .error e := by
  by_cases hrsv : ReservedZero w
  · obtain ⟨h0, h1, h2⟩ := id hrsv
    have hop : opField w = 0 ∨ 6 ≤ opField w := by simpa [IllegalWord, h0, h1, h2] using h
    exact ⟨_, (decode_of_reservedZero hrsv).trans (commandOfFields_of_reserved hop ..)⟩
  · exact ⟨_, decode_of_not_reservedZero hrsv⟩

theorem decode_encodeFields {op n k arg : Nat} (hop : op < 2 ^ 4) (hfit : FieldsFit n k)
    (harg : arg < 2 ^ 32) :
    decode (encodeFields op n k arg) = commandOfFields op n k (BitVec.ofNat 32 arg) := by
  have hargField : argField (encodeFields op n k arg) = BitVec.ofNat 32 arg := by
    refine BitVec.eq_of_toNat_eq ?_
    rw [toNat_argField_encodeFields hop hfit harg, BitVec.toNat_ofNat, Nat.mod_eq_of_lt harg]
  rw [decode_of_reservedZero (reservedZero_encodeFields hop hfit harg), hargField,
    opField_encodeFields hop hfit harg, nField_encodeFields hop hfit harg,
    kField_encodeFields hop hfit harg]

/-! ### Match and mask (R84) -/

section Mask
variable (w : CmdWord)

/-- A field that a mask holds whole is what it was under the mask. -/
theorem extractLsb'_and_of_allOnes {m : CmdWord} {start len : Nat}
    (h : m.extractLsb' start len = BitVec.allOnes len) :
    (w &&& m).extractLsb' start len = w.extractLsb' start len := by
  rw [BitVec.extractLsb'_and, h, BitVec.and_allOnes]

theorem opField_and_opcodeMask : opField (w &&& opcodeMask) = opField w :=
  congrArg BitVec.toNat (extractLsb'_and_of_allOnes w (by decide))
theorem rsv0Field_and_opcodeMask : rsv0Field (w &&& opcodeMask) = rsv0Field w :=
  congrArg BitVec.toNat (extractLsb'_and_of_allOnes w (by decide))
theorem rsv1Field_and_opcodeMask : rsv1Field (w &&& opcodeMask) = rsv1Field w :=
  congrArg BitVec.toNat (extractLsb'_and_of_allOnes w (by decide))
theorem rsv2Field_and_opcodeMask : rsv2Field (w &&& opcodeMask) = rsv2Field w :=
  congrArg BitVec.toNat (extractLsb'_and_of_allOnes w (by decide))

end Mask

/-- The fields under the mask of R84 are the opcode and the reserved fields. -/
theorem fields_eq_of_and_opcodeMask_eq {w w' : CmdWord} (h : w &&& opcodeMask = w' &&& opcodeMask) :
    opField w = opField w' ∧ rsv0Field w = rsv0Field w' ∧ rsv1Field w = rsv1Field w' ∧
      rsv2Field w = rsv2Field w' := by
  have same {f : CmdWord → Nat} (hf : ∀ w, f (w &&& opcodeMask) = f w) : f w = f w' :=
    (hf w).symm.trans ((congrArg f h).trans (hf w'))
  exact ⟨same opField_and_opcodeMask, same rsv0Field_and_opcodeMask, same rsv1Field_and_opcodeMask,
    same rsv2Field_and_opcodeMask⟩

/-- A word's match under the mask is all that selects its command. -/
theorem decode_of_and_opcodeMask {w : CmdWord} {op : Nat} (hop : op < 2 ^ 4)
    (h : w &&& opcodeMask = BitVec.ofNat 64 op) :
    decode w = commandOfFields op (nField w) (kField w) (argField w) := by
  have hword : w &&& opcodeMask = encodeFields op 0 0 0 &&& opcodeMask := by
    rw [h, Laws.EncodesItsRow.encodeFields_masked op 0 0 0 (by decide) (by decide) hop]
  have hzero : FieldsFit 0 0 := by decide
  obtain ⟨hopw, h0, h1, h2⟩ := fields_eq_of_and_opcodeMask_eq hword
  obtain ⟨hz0, hz1, hz2⟩ := reservedZero_encodeFields hop hzero (by decide : 0 < 2 ^ 32)
  rw [decode_of_reservedZero ⟨h0.trans hz0, h1.trans hz1, h2.trans hz2⟩,
    hopw.trans (opField_encodeFields hop hzero (by decide))]

/-! ### Performing a word (R95), and a step that performs one -/

section RunWord
variable {w : CmdWord}

theorem runWord_of_decode_ok {i : Instr} (h : decode w = .ok i) (s : State) :
    runWord w s = exec i s := by
  simp only [runWord, h]

theorem runWord_of_decode_error {e : Illegal} (h : decode w = .error e) (s : State) :
    runWord w s = .next (s.posted 1#3 0#32) := by
  simp only [runWord, h]
  rfl

theorem runWord_of_illegalWord (h : IllegalWord w) (s : State) :
    runWord w s = .next (s.posted 1#3 0#32) := by
  obtain ⟨e, he⟩ := decode_of_illegalWord h
  exact runWord_of_decode_error he s

theorem runWord_of_decode_eq {w' : CmdWord} (h : decode w = decode w') (s : State) :
    runWord w s = runWord w' s := by
  rw [runWord, h, runWord]

end RunWord

theorem decodeTableWord_eq_some_iff {nbits w : Nat} {i : Instr} :
    decodeTableWord nbits w = some i ↔ decode (tableWord nbits w) = .ok i := by
  unfold decodeTableWord
  cases decode (tableWord nbits w) <;> simp [Except.toOption]

/-- Whatever the phase and the host's ports, a step goes on where BTAB holds its content: only
performing a command reads it. -/
theorem exists_step {s : State} (hrom : s.RomIntact) : ∃ t, step s = .next t := by
  cases hrst : (currentPins s).rst with
  | true => exact ⟨_, if_pos hrst⟩
  | false =>
    cases hphase : s.ifSt with
    | ready =>
      cases hvalid : (currentPins s).cmdValid with
      | true => exact ⟨_, step_of_offer hrst hphase hvalid⟩
      | false => exact ⟨_, step_of_no_offer hrst hphase hvalid⟩
    | busy w wait =>
      cases wait with
      | zero =>
        obtain ⟨t, ht⟩ := exists_runWord (s := passEdge s) hrom w
        exact ⟨t, (step_of_due hrst hphase).trans ht⟩
      | succ m => exact ⟨_, step_of_wait hrst hphase⟩
    | resp =>
      cases hready : (currentPins s).rspReady with
      | true => exact ⟨_, step_of_taken hrst hphase hready⟩
      | false => exact ⟨_, step_of_not_taken hrst hphase hready⟩

/-! ### The obligations -/

/-- Settles O1: the encoder's word has the command's operands in its fields, and each fits. -/
theorem decodeEncodeRoundTrip : Obligations.DecodeEncodeRoundTrip := by
  intro i hi
  cases i with
  | binom row col => exact decode_encodeFields (by decide) (of_decide_eq_true hi) (by decide)
  | rank n k b =>
    refine (decode_encodeFields (by decide) (of_decide_eq_true hi) b.isLt).trans ?_
    simp [commandOfFields]
  | unrank n k r =>
    obtain ⟨hfit, hr⟩ := of_decide_eq_true hi
    refine (decode_encodeFields (by decide) hfit hr).trans ?_
    simpa [commandOfFields] using hr
  | gstart n k => exact decode_encodeFields (by decide) (of_decide_eq_true hi) (by decide)
  | gnext => exact decode_encodeFields (by decide) (by decide) (by decide)

/-- Settles O56: only a walk over BTAB could stop, and over the intact table none does. -/
theorem consistentStatesNeverStop : Obligations.ConsistentStatesNeverStop := fun _ hs =>
  ⟨exists_step hs.rom, exists_runWord hs.rom⟩

/-- Settles O2: the shifted fields do not overlap, and with the reserved ones they are the word. -/
theorem encAndFieldExtractionAreInverse : Obligations.EncAndFieldExtractionAreInverse := by
  refine ⟨fun op n k arg hop hn hk harg => ?_, fun w h0 h1 h2 => encodeFields_fields ⟨h0, h1, h2⟩⟩
  have hfit : FieldsFit n k := ⟨hn, hk⟩
  exact ⟨toNat_encodeFields hop hfit harg, opField_encodeFields hop hfit harg,
    nField_encodeFields hop hfit harg, kField_encodeFields hop hfit harg,
    toNat_argField_encodeFields hop hfit harg, reservedZero_encodeFields hop hfit harg⟩

/-- Settles O3: the mask keeps just the opcode and the reserved fields, on which decoding turns; and
a word that decodes matches its command's row. -/
theorem matchAndMaskSelectTheCommand : Obligations.MatchAndMaskSelectTheCommand := by
  refine fun w => ⟨decode_of_and_opcodeMask (op := 1) (by decide),
    decode_of_and_opcodeMask (op := 2) (by decide), decode_of_and_opcodeMask (op := 3) (by decide),
    decode_of_and_opcodeMask (op := 4) (by decide), decode_of_and_opcodeMask (op := 5) (by decide),
    fun hnone => ?_⟩
  cases hdec : decode w with
  | ok i => exact absurd (and_opcodeMask_of_decode hdec) (hnone i)
  | error e => exact ⟨⟨e, rfl⟩, runWord_of_decode_error hdec⟩

/-- Settles O4: words that agree under the mask and in the used fields decode alike, and illegality
is decided under the mask. -/
theorem unusedFieldsHaveNoEffect : Obligations.UnusedFieldsHaveNoEffect := by
  intro w w' s hmask
  have sameRow {op : Nat} (hop : op < 2 ^ 4) (hrow : w &&& opcodeMask = BitVec.ofNat 64 op)
      (hcmd : commandOfFields op (nField w) (kField w) (argField w) =
        commandOfFields op (nField w') (kField w') (argField w')) : runWord w s = runWord w' s := by
    refine runWord_of_decode_eq ?_ s
    rw [decode_of_and_opcodeMask hop hrow, hcmd,
      decode_of_and_opcodeMask hop (hmask.symm.trans hrow)]
  refine ⟨fun hrow hn hk => ?_, fun hrow => sameRow (op := 5) (by decide) hrow rfl, fun hill => ?_⟩
  · rcases hrow with hbinom | hgstart
    · exact sameRow (op := 1) (by decide) hbinom (by rw [hn, hk]; rfl)
    · exact sameRow (op := 4) (by decide) hgstart (by rw [hn, hk]; rfl)
  · obtain ⟨hop, h0, h1, h2⟩ := fields_eq_of_and_opcodeMask_eq hmask
    have hill' : IllegalWord w' := by rwa [IllegalWord, hop, h0, h1, h2] at hill
    rw [runWord_of_illegalWord hill, runWord_of_illegalWord hill']

/-- Settles O6: an illegal word decodes to no command; GSTART and GNEXT answer the same where there
is no generator. -/
theorem illegalWordsAnswerErrIllegal : Obligations.IllegalWordsAnswerErrIllegal := by
  refine fun w s => ⟨fun hill => runWord_of_illegalWord hill s, fun hgen hop => ?_⟩
  by_cases hrsv : ReservedZero w
  · have hdec := decode_of_reservedZero hrsv
    rcases hop with hop | hop
    · rw [hop] at hdec
      exact (runWord_of_decode_ok hdec s).trans (execGstart_of_absent hgen)
    · rw [hop] at hdec
      exact (runWord_of_decode_ok hdec s).trans (execGnext_of_absent hgen)
  · exact runWord_of_decode_error (decode_of_not_reservedZero hrsv) s

/-- Settles O7: the operands are fields, which fit themselves. -/
theorem decodedCommandsAreWellFormed : Obligations.DecodedCommandsAreWellFormed := fun w _ h =>
  wellFormed_of_commandOfFields (fieldsFit_fields w) (decode_eq_ok_iff.mp h).2

/-- Settles O8: what a word decodes to is well-formed, so it assembles, to a word that decodes
alike. -/
theorem disassembledLineRunsAlike : Obligations.DisassembledLineRunsAlike := by
  refine ⟨fun w => ?_, fun i w h => ?_⟩
  · cases hdec : decode w with
    | ok i =>
      have hwf := decodedCommandsAreWellFormed w i hdec
      refine ⟨encode i, ?_, runWord_of_decode_eq ((decodeEncodeRoundTrip i hwf).trans hdec.symm)⟩
      simp [disassemble, hdec, assembleLine, assemble, hwf]
    | error e => exact ⟨w, by simp [disassemble, hdec, assembleLine], fun _ => rfl⟩
  · obtain ⟨hwf, rfl⟩ : i.WellFormed = true ∧ encode i = w := by simpa [assemble] using h
    simp [disassemble, decodeEncodeRoundTrip i hwf]

/-- Settles O5: the five words computed from Enc; the decoder reads them by the round trip. -/
theorem workedEncodingsRead : Obligations.WorkedEncodingsRead := by
  have bothWays {i : Instr} {w : CmdWord} (hwf : i.WellFormed = true) (henc : encode i = w) :
      encode i = w ∧ decode w = .ok i := ⟨henc, henc ▸ decodeEncodeRoundTrip i hwf⟩
  exact ⟨bothWays (by decide) (by decide), bothWays (by decide) (by decide),
    bothWays (by decide) (by decide), bothWays (by decide) (by decide),
    bothWays (by decide) (by decide)⟩

/-- Settles O20, by RANK's row of match and mask. -/
theorem rankWordRunsRank : Obligations.RankWordRunsRank := fun _ s h =>
  runWord_of_decode_ok (decode_of_and_opcodeMask (op := 2) (by decide) h) s

/-- Settles O26, by UNRANK's row of match and mask. -/
theorem unrankWordRunsUnrank : Obligations.UnrankWordRunsUnrank := fun _ s h =>
  runWord_of_decode_ok (decode_of_and_opcodeMask (op := 3) (by decide) h) s

/-- Settles O44: a step that is due performs the word in the state with the edge gone by; a placed
word is due on an edge without reset. -/
theorem stepRunsTheDecodedCommand : Obligations.StepRunsTheDecodedCommand := by
  refine ⟨fun s w i hphase hrst hdec => ⟨decodedCommandsAreWellFormed w i hdec, ?_⟩,
    fun s w e hphase hrst hdec => ?_, fun s nbits w i hdec => ?_⟩
  · exact (step_of_due hrst hphase).trans (runWord_of_decode_ok hdec _)
  · exact (step_of_due hrst hphase).trans (runWord_of_decode_error hdec _)
  · exact (step_of_due rfl rfl).trans
      (runWord_of_decode_ok (decodeTableWord_eq_some_iff.mp hdec) _)

end Sys2Proof.Machine

/-! PROOFS for 40_binomial_table.md: BTAB's entries are the binomial coefficients of its recurrence
(R100, R101, R103) and of the source's build (R104), BINOM answers them (R105), and no step writes BTAB
(R106). -/

namespace Sys2Proof.Machine

/-! ### The recurrence and the coefficients (R100, R101) -/

/-- The recurrence's edge cases and its sum are those of the coefficients; to the right of the triangle
both are 0. -/
theorem pascalEntry_eq_choose (i j : Nat) : pascalEntry i j = Nat.choose i j := by
  induction i generalizing j with
  | zero => cases j <;> rfl
  | succ i ih =>
    cases j with
    | zero => rfl
    | succ j =>
      by_cases hedge : i = j
      · rw [pascalEntry, if_pos hedge, hedge, Nat.choose_self]
      · rw [pascalEntry, if_neg hedge, ih, ih, Nat.choose_succ_succ']

/-- The largest coefficient of the triangle is the middle one of its last row (R101). -/
theorem choose_le_of_le_maxBits {i : Nat} (hi : i ≤ 32) (j : Nat) : Nat.choose i j ≤ 601080390 :=
  calc Nat.choose i j ≤ Nat.choose 32 j := Nat.choose_le_choose j hi
    _ ≤ Nat.choose 32 (32 / 2) := Nat.choose_le_middle j 32
    _ = 601080390 := by decide

/-! ### The entries of the intact table (R100, R103, R104) -/

/-- The intact table holds an entry at the addresses of the triangle only, the coefficient. -/
theorem romRead_romContent_eq_some_iff {i j : Nat} {v : Word32} :
    romRead romContent i j = some v ↔
      j ≤ i ∧ i ≤ 32 ∧ v = BitVec.ofNat 32 (Nat.choose i j) := by
  constructor
  · intro h
    obtain ⟨⟨hj, hi⟩, -⟩ := (romRead_eq_some_iff ..).mp h
    exact ⟨hj, hi, Option.some.inj (h.symm.trans (romRead_romContent hj hi))⟩
  · rintro ⟨hj, hi, rfl⟩
    exact romRead_romContent hj hi

theorem ofNat_choose_eq_one_iff {i : Nat} (hi : i ≤ 32) (j : Nat) :
    BitVec.ofNat 32 (Nat.choose i j) = 1#32 ↔ j = 0 ∨ j = i := by
  rw [← BitVec.toNat_inj, toNat_ofNat_choose hi, BitVec.toNat_one (by decide), Nat.choose_eq_one_iff,
    eq_comm (a := i)]

theorem length_chooseRow (i : Nat) : (chooseRow i).length = i + 1 := by simp [chooseRow]

theorem length_romContent : romContent.length = 33 := by simp [romContent_eq_chooseRows]

theorem length_of_romContent_row {i : Nat} {row : List Word32} (h : romContent[i]? = some row) :
    row.length = i + 1 := by
  have hi : i < 33 := length_romContent ▸ (List.getElem?_eq_some_iff.mp h).1
  rw [romContent_eq_chooseRows, List.getElem?_map, List.getElem?_range hi] at h
  cases h
  rw [List.length_map, length_chooseRow]

/-! ### BINOM, one equation per case (R105) -/

theorem execBinom_of_valid {s : State} (hrom : s.RomIntact) {i j : Nat} (hj : j ≤ i) (hi : i ≤ 32) :
    execBinom i j s = .next (s.posted 0#3 (BitVec.ofNat 32 (Nat.choose i j))) := by
  have hok : ¬ConfigError i j := not_or.mpr ⟨hi.not_gt, hj.not_gt⟩
  rw [execBinom, if_neg hok, hrom, romRead_romContent hj hi]
  rfl

theorem execBinom_of_configError {i j : Nat} (herr : ConfigError i j) (s : State) :
    execBinom i j s = .next (s.posted 2#3 0#32) := if_pos herr

/-! ### No step writes the parameters or BTAB (R106; 10_state.md R34) -/

theorem runWord_params {w : CmdWord} {s t : State} (h : runWord w s = .next t) :
    t.params = s.params := by
  obtain ⟨u, hu, status, data, rfl, -⟩ := runWord_writes h
  obtain rfl | ⟨i, -, hwrite⟩ := hu
  · rfl
  · cases hwrite <;> rfl

theorem step_keeps_btab_params {s t : State} (h : step s = .next t) :
    t.btab = s.btab ∧ t.params = s.params := by
  obtain ⟨-, rfl⟩ | ⟨-, ⟨-, -, rfl⟩ | ⟨-, -, rfl⟩ | ⟨w, -, hrun⟩ | ⟨w, m, -, rfl⟩ |
    ⟨-, -, rfl⟩ | ⟨-, -, rfl⟩⟩ := step_cases h
  · exact ⟨rfl, rfl⟩
  · exact ⟨rfl, rfl⟩
  · exact ⟨rfl, rfl⟩
  · exact ⟨(runWord_btab hrun).trans (passEdge_btab s),
      (runWord_params hrun).trans (passEdge_params s)⟩
  · exact ⟨rfl, rfl⟩
  · exact ⟨rfl, rfl⟩
  · exact ⟨rfl, rfl⟩

/-! ### The obligations -/

/-- Settles O9: each entry is a coefficient that fits its 32 bits, so the sum of two of them is
Pascal's rule on numbers. -/
theorem romHoldsBinomialCoefficients : Obligations.RomHoldsBinomialCoefficients := by
  refine ⟨fun i hi => ⟨?_, ?_⟩, fun i j hj hji hi => ?_, fun i j hj hi => ?_⟩
  · rw [romRead_romContent i.zero_le hi, Nat.choose_zero_right]
  · rw [romRead_romContent le_rfl hi, Nat.choose_self]
  · have hi' : i - 1 ≤ 32 := by omega
    refine ⟨_, _, _, romRead_romContent (by omega) hi', romRead_romContent (by omega) hi',
      romRead_romContent hji.le hi, ?_⟩
    rw [toNat_ofNat_choose hi, toNat_ofNat_choose hi', toNat_ofNat_choose hi']
    exact Nat.choose_eq_choose_pred_add (hj.trans hji) hj
  · exact ⟨_, romRead_romContent hj hi, toNat_ofNat_choose hi j,
      (pascalEntry_eq_choose i j).trans (toNat_ofNat_choose hi j).symm⟩

/-- Settles O13: BINOM reads one entry of the table, or finds its address outside the triangle. -/
theorem binomAnswersTheCoefficient : Obligations.BinomAnswersTheCoefficient := fun s =>
  ⟨fun _ j hrom hj hi =>
      ⟨execBinom_of_valid hrom hj hi, (choose_le_of_le_maxBits hi j).trans_lt (by decide)⟩,
    fun _ _ herr => execBinom_of_configError herr s,
    fun _ h => runWord_of_decode_ok (decode_of_and_opcodeMask (op := 1) (by decide) h) s⟩

/-- Settles O47: no register operation and no command writes BTAB or the parameters. -/
theorem btabAndParametersNeverChange : Obligations.BtabAndParametersNeverChange :=
  ⟨fun _ _ => step_keeps_btab_params, rfl, fun _ => rfl⟩

/-- Settles O10: the listing is the build, whose rows are those of Pascal's triangle. -/
theorem romIsTheBuiltTable : Obligations.RomIsTheBuiltTable :=
  ⟨congrArg _ romRows_eq_buildRows, length_romContent, fun _ _ => length_of_romContent_row⟩

/-- Settles O11: the entry is a coefficient, which is positive, at most the middle one of row 32, and
1 at the edges only. -/
theorem romEntryBoundsAndEdges : Obligations.RomEntryBoundsAndEdges := by
  intro i j v h
  obtain ⟨hj, hi, rfl⟩ := romRead_romContent_eq_some_iff.mp h
  rw [toNat_ofNat_choose hi]
  exact ⟨Nat.choose_pos hj, choose_le_of_le_maxBits hi j, ofNat_choose_eq_one_iff hi j⟩

end Sys2Proof.Machine

/-! PROOFS for 41_rank_encoder.md: RankWalk's cursor (R131 to R134, R137) and its closed form (R138),
which counts the smaller bitmaps (R130) and bounds the rank (R135), and RANK's corner cases (R136). -/

namespace Sys2Proof.Machine

/-! ### The closed form, one position at a time (R138) -/

/-- The sum of R138 over the set positions of `v` below `m`; the set position `p` is the
`bitsBelow v (p + 1)`-th from below. -/
def closedForm (v : Word32) (m : Nat) : Nat :=
  ∑ p ∈ (Finset.range m).filter (fun p => v.getLsbD p = true), Nat.choose p (bitsBelow v (p + 1))

@[simp] theorem closedForm_zero (v : Word32) : closedForm v 0 = 0 := rfl

section ClosedForm

variable {v : Word32} {m : Nat}

theorem bitsBelow_succ_of_clear (h : v.getLsbD m = false) : bitsBelow v (m + 1) = bitsBelow v m := by
  rw [bitsBelow_succ, h, Bool.toNat_false, Nat.add_zero]

theorem bitsBelow_succ_of_set (h : v.getLsbD m = true) :
    bitsBelow v (m + 1) = bitsBelow v m + 1 := by
  rw [bitsBelow_succ, h, Bool.toNat_true]

theorem closedForm_succ_of_clear (h : v.getLsbD m = false) :
    closedForm v (m + 1) = closedForm v m := by
  simp [closedForm, Finset.sum_filter, Finset.sum_range_succ, h]

theorem closedForm_succ_of_set (h : v.getLsbD m = true) :
    closedForm v (m + 1) = closedForm v m + Nat.choose m (bitsBelow v m + 1) := by
  simp [closedForm, Finset.sum_filter, Finset.sum_range_succ, h, bitsBelow_succ_of_set h]

end ClosedForm

/-- Clear bits add nothing to the sum. -/
theorem closedForm_eq_of_clear {v : Word32} {n m : Nat} (hnm : n ≤ m)
    (h : ∀ i, n ≤ i → v.getLsbD i = false) : closedForm v m = closedForm v n := by
  induction m, hnm using Nat.le_induction with
  | base => rfl
  | succ m hm ih => rw [closedForm_succ_of_clear (h m hm), ih]

/-- The sum is below the number of ways to place the set bits; Pascal's rule at each position. -/
theorem closedForm_lt_choose (v : Word32) (m : Nat) :
    closedForm v m < Nat.choose m (bitsBelow v m) := by
  induction m with
  | zero => simp
  | succ m ih =>
    cases hbit : v.getLsbD m with
    | false =>
      rw [closedForm_succ_of_clear hbit, bitsBelow_succ_of_clear hbit]
      exact ih.trans_le (Nat.choose_le_choose _ m.le_succ)
    | true =>
      rw [closedForm_succ_of_set hbit, bitsBelow_succ_of_set hbit, Nat.choose_succ_succ']
      omega

/-- LAST attains the bound: no bit is placed below its block of set bits, and within the block each
term is the one Pascal's rule asks for. -/
theorem closedForm_lastBitmap {n k : Nat} (hk : k ≤ n) (hn : n ≤ 32) {m : Nat} (hm : m ≤ n) :
    closedForm (lastBitmap n k) m + 1 = Nat.choose m (bitsBelow (lastBitmap n k) m) := by
  induction m with
  | zero => rfl
  | succ m ih =>
    have hprev := ih (Nat.le_of_succ_le hm)
    by_cases hset : n - k ≤ m
    · have hbit : (lastBitmap n k).getLsbD m = true := by
        rw [getLsbD_lastBitmap hk hn]
        exact decide_eq_true ⟨hset, hm⟩
      rw [closedForm_succ_of_set hbit, bitsBelow_succ_of_set hbit, Nat.choose_succ_succ', ← hprev]
      omega
    · have hbit : (lastBitmap n k).getLsbD m = false := by
        rw [getLsbD_lastBitmap hk hn]
        exact decide_eq_false fun ⟨hle, _⟩ => hset hle
      have hnone : bitsBelow (lastBitmap n k) m = 0 := by
        rw [bitsBelow_of_block (Nat.sub_le n k) (getLsbD_lastBitmap hk hn)]
        omega
      rw [hnone, Nat.choose_zero_right] at hprev
      rw [closedForm_succ_of_clear hbit, bitsBelow_succ_of_clear hbit, hnone, hprev,
        Nat.choose_zero_right]

/-! ### RankWalk, one step at a time (R131, R132, R134) -/

theorem rankWalk_of_edge {row col : Nat} (hrow : row ≤ 32) (hedge : col = 0 ∨ col = row) (b : Word32)
    (total : Nat) : rankWalk romContent b row col total = some total :=
  rankWalk_of_choose_eq_one (by omega) hrow
    (Nat.choose_eq_one_iff.mpr (hedge.imp_right Eq.symm)) b total

section Inside

variable {b : Word32} {row c : Nat} (hc : c < row) (hrow : row + 1 ≤ 32)

include hc in
theorem choose_inside_ne_one : Nat.choose (row + 1) (c + 1) ≠ 1 := by
  rw [Ne, Nat.choose_eq_one_iff]
  omega

include hc hrow

theorem rankWalk_of_set (hbit : b.getLsbD row = true) (total : Nat) :
    rankWalk romContent b (row + 1) (c + 1) total =
      rankWalk romContent b row (c + 1) (total + Nat.choose row c) := by
  rw [rankWalk_inside hc hrow (choose_inside_ne_one hc), if_pos hbit]

theorem rankWalk_of_clear (hbit : b.getLsbD row = false) (total : Nat) :
    rankWalk romContent b (row + 1) (c + 1) total = rankWalk romContent b row c total := by
  rw [rankWalk_inside hc hrow (choose_inside_ne_one hc), hbit, if_neg Bool.false_ne_true]

end Inside

/-! ### RankWalk adds the closed form (R138) -/

/-- With no bit clear or none set there is one way to place them, and the closed form is below that. -/
theorem closedForm_eq_zero {b : Word32} {row col : Nat} (hclear : bitsBelow b row + col = row)
    (hedge : col = 0 ∨ col = row) : closedForm b row = 0 := by
  have hone : Nat.choose row (bitsBelow b row) = 1 := Nat.choose_eq_one_iff.mpr (by omega)
  exact Nat.lt_one_iff.mp (hone ▸ closedForm_lt_choose b row)

/-- The walk keeps its column at the number of clear bits below its row, so the entry it adds at a set
bit is that bit's term of the closed form. -/
theorem rankWalk_eq_closedForm {b : Word32} {row col : Nat} (hrow : row ≤ 32)
    (hclear : bitsBelow b row + col = row) (total : Nat) :
    rankWalk romContent b row col total = some (total + closedForm b row) := by
  induction row generalizing col total with
  | zero =>
    have hcol : col = 0 := Nat.eq_zero_of_add_eq_zero_left hclear
    rw [rankWalk_of_edge hrow (.inl hcol), closedForm_zero, Nat.add_zero]
  | succ row ih =>
    by_cases hedge : col = 0 ∨ col = row + 1
    · rw [rankWalk_of_edge hrow hedge, closedForm_eq_zero hclear hedge, Nat.add_zero]
    · obtain ⟨c, rfl⟩ := Nat.exists_eq_succ_of_ne_zero (not_or.mp hedge).1
      have hc : c < row := by omega
      cases hbit : b.getLsbD row with
      | false =>
        rw [bitsBelow_succ_of_clear hbit] at hclear
        rw [rankWalk_of_clear hc hrow hbit, closedForm_succ_of_clear hbit]
        exact ih (by omega) (by omega) total
      | true =>
        rw [bitsBelow_succ_of_set hbit] at hclear
        have hterm : Nat.choose row c = Nat.choose row (bitsBelow b row + 1) :=
          Nat.choose_symm_of_eq_add (by omega)
        rw [rankWalk_of_set hc hrow hbit, closedForm_succ_of_set hbit,
          ih (by omega) (by omega), hterm, Nat.add_right_comm, Nat.add_assoc total]

/-! ### RANK, one equation per case (R131) -/

section Rank

variable {n k : Nat} {b : Word32} (s : State)

theorem execRank_of_configError (herr : ConfigError n k) :
    execRank n k b s = .next (s.posted 2#3 0#32) := if_pos herr

theorem execRank_of_bitmapError (hok : ConfigValid n k) (herr : BitmapError n k b) :
    execRank n k b s = .next (s.posted 3#3 0#32) := by
  rw [execRank, if_neg (not_or.mpr ⟨hok.2.not_gt, hok.1.not_gt⟩), if_pos herr]
  rfl

variable {s}

theorem execRank_of_valid (hrom : s.RomIntact) (hok : ConfigValid n k) (hb : BitmapValid n k b) :
    execRank n k b s = .next (s.posted 0#3 (BitVec.ofNat 32 (closedForm b n))) := by
  obtain ⟨hk, hn⟩ := hok
  have hwalk : rankWalk romContent b n (n - k) 0 = some (0 + closedForm b n) :=
    rankWalk_eq_closedForm hn (by rw [bitsBelow_of_bitmapValid hn hb, Nat.add_sub_cancel' hk]) 0
  rw [execRank, if_neg (not_or.mpr ⟨hn.not_gt, hk.not_gt⟩),
    if_neg (not_or.mpr ⟨not_not.mpr hb.1, not_not.mpr hb.2⟩), hrom, hwalk, Nat.zero_add]
  rfl

theorem closedForm_lt_of_bitmapValid (hn : n ≤ 32) (hb : BitmapValid n k b) :
    closedForm b n < Nat.choose n k :=
  bitsBelow_of_bitmapValid hn hb ▸ closedForm_lt_choose b n

end Rank

/-! ### The closed form counts the smaller bitmaps (R130) -/

theorem count_congr {p q : Nat → Prop} [DecidablePred p] [DecidablePred q] {u : Nat}
    (h : ∀ x < u, p x ↔ q x) : Nat.count p u = Nat.count q u :=
  (Nat.count_mono_left fun x hx => (h x hx).mp).antisymm
    (Nat.count_mono_left fun x hx => (h x hx).mpr)

/-- How many of the values below `u` have `j` set bits among their low `m`. -/
def countWith (m j u : Nat) : Nat :=
  Nat.count (fun x => bitsBelow (BitVec.ofNat 32 x) m = j) u

section CountWith

variable {m j u x : Nat}

/-- A value below 2^m has bit m clear. -/
theorem bitsBelow_ofNat_of_lt (hx : x < 2 ^ m) :
    bitsBelow (BitVec.ofNat 32 x) (m + 1) = bitsBelow (BitVec.ofNat 32 x) m := by
  refine bitsBelow_succ_of_clear (getLsbD_of_toNat_lt ?_ le_rfl)
  exact (Nat.mod_le x (2 ^ 32)).trans_lt hx

/-- Adding 2^m to such a value sets bit m and leaves those below. -/
theorem bitsBelow_ofNat_two_pow_add (hm : m < 32) (hx : x < 2 ^ m) :
    bitsBelow (BitVec.ofNat 32 (2 ^ m + x)) (m + 1) = bitsBelow (BitVec.ofNat 32 x) m + 1 := by
  have hbit : (BitVec.ofNat 32 (2 ^ m + x)).getLsbD m = true := by
    rw [BitVec.getLsbD_ofNat, Nat.testBit_two_pow_add_eq, Nat.testBit_lt_two_pow hx]
    simpa using hm
  rw [bitsBelow_succ_of_set hbit]
  refine congrArg (· + 1) (bitsBelow_congr_from m.zero_le rfl fun i _ him => ?_)
  rw [BitVec.getLsbD_ofNat, BitVec.getLsbD_ofNat, Nat.testBit_two_pow_add_gt him]

/-- Below 2^m, looking at bit m as well changes no count. -/
theorem countWith_succ_of_le (hu : u ≤ 2 ^ m) : countWith (m + 1) j u = countWith m j u :=
  count_congr fun x hx => by rw [bitsBelow_ofNat_of_lt (hx.trans_le hu)]

/-- From 2^m on, bit m is one of the set bits. -/
theorem countWith_two_pow_add (hm : m < 32) (hu : u ≤ 2 ^ m) :
    countWith (m + 1) (j + 1) (2 ^ m + u) = countWith m (j + 1) (2 ^ m) + countWith m j u := by
  rw [countWith, Nat.count_add]
  refine congrArg₂ (· + ·) (countWith_succ_of_le le_rfl) (count_congr fun x hx => ?_)
  rw [bitsBelow_ofNat_two_pow_add hm (hx.trans_le hu), Nat.add_left_inj]

theorem countWith_zero_two_pow_add (hm : m < 32) (hu : u ≤ 2 ^ m) :
    countWith (m + 1) 0 (2 ^ m + u) = countWith m 0 (2 ^ m) := by
  rw [countWith, Nat.count_add]
  refine congrArg₂ (· + ·) (countWith_succ_of_le le_rfl)
    (Nat.count_iff_forall_not.mpr fun x hx => ?_)
  rw [bitsBelow_ofNat_two_pow_add hm (hx.trans_le hu)]
  exact Nat.succ_ne_zero _

end CountWith

/-- There are C(m, j) values of m bits with j of them set: bit m is clear or set. -/
theorem countWith_two_pow {m : Nat} (hm : m ≤ 32) (j : Nat) :
    countWith m j (2 ^ m) = Nat.choose m j := by
  induction m generalizing j with
  | zero => cases j <;> rfl
  | succ m ih =>
    have hprev := ih (Nat.le_of_succ_le hm)
    rw [pow_succ, Nat.mul_two]
    cases j with
    | zero =>
      rw [countWith_zero_two_pow_add hm le_rfl, hprev, Nat.choose_zero_right, Nat.choose_zero_right]
    | succ j =>
      rw [countWith_two_pow_add hm le_rfl, hprev, hprev, Nat.choose_succ_succ', Nat.add_comm]

/-- Where bit m of `v` is set, the smaller values with as many set bits either have it clear, with one
more bit to place below, or agree with `v` there and are smaller below. -/
theorem countWith_bitsBelow (v : Word32) {m : Nat} (hm : m ≤ 32) :
    countWith m (bitsBelow v m) (v.toNat % 2 ^ m) = closedForm v m := by
  induction m with
  | zero => rw [pow_zero, Nat.mod_one]; rfl
  | succ m ih =>
    have hprev := ih (Nat.le_of_succ_le hm)
    have hlt : v.toNat % 2 ^ m ≤ 2 ^ m := (Nat.mod_lt _ (Nat.two_pow_pos m)).le
    rw [toNat_mod_two_pow_succ]
    cases hbit : v.getLsbD m with
    | false =>
      rw [bitsBelow_succ_of_clear hbit, closedForm_succ_of_clear hbit, Bool.toNat_false,
        Nat.mul_zero, add_zero, countWith_succ_of_le hlt, hprev]
    | true =>
      rw [bitsBelow_succ_of_set hbit, closedForm_succ_of_set hbit, Bool.toNat_true, Nat.mul_one,
        Nat.add_comm (v.toNat % 2 ^ m), countWith_two_pow_add hm hlt, hprev,
        countWith_two_pow (Nat.le_of_succ_le hm), Nat.add_comm]

/-- Among the values of n bits, the valid bitmaps are those with k set. -/
theorem smallerBitmaps_eq_countWith {n k : Nat} {b : Word32} (hn : n ≤ 32) (hb : b.toNat < 2 ^ n) :
    smallerBitmaps n k b = countWith n k b.toNat := by
  refine count_congr fun x hx => ⟨bitsBelow_of_bitmapValid hn, fun hbits => ?_⟩
  have hlt : (BitVec.ofNat 32 x).toNat < 2 ^ n :=
    (Nat.mod_le x (2 ^ 32)).trans_lt (hx.trans hb)
  refine (bitmapValid_iff ..).mpr ⟨hlt, ?_⟩
  rw [popcount, bitsBelow_eq_of_clear hn fun i => getLsbD_of_toNat_lt hlt, hbits]

theorem smallerBitmaps_eq_closedForm {n k : Nat} {b : Word32} (hn : n ≤ 32)
    (hb : BitmapValid n k b) : smallerBitmaps n k b = closedForm b n := by
  obtain ⟨hlt, -⟩ := (bitmapValid_iff n k b).mp hb
  rw [smallerBitmaps_eq_countWith hn hlt, ← countWith_bitsBelow b hn, Nat.mod_eq_of_lt hlt,
    bitsBelow_of_bitmapValid hn hb]

/-! ### The ends of the order (R136) -/

/-- No valid bitmap is smaller than FIRST. -/
theorem execRank_firstBitmap {s : State} (hrom : s.RomIntact) {n k : Nat} (hok : ConfigValid n k) :
    execRank n k (firstBitmap k) s = .next (s.posted 0#3 0#32) := by
  obtain ⟨hk, hn⟩ := hok
  have hvalid := firstBitmap_valid hk hn
  have hnone : smallerBitmaps n k (firstBitmap k) = 0 := by
    refine Nat.count_iff_forall_not.mpr fun x hx hsmall => hx.not_ge ?_
    exact (firstBitmap_le_of_bitmapValid hk hn hsmall).trans (Nat.mod_le x (2 ^ 32))
  rw [execRank_of_valid hrom ⟨hk, hn⟩ hvalid, ← smallerBitmaps_eq_closedForm hn hvalid, hnone]

theorem execRank_lastBitmap {s : State} (hrom : s.RomIntact) {n k : Nat} (hok : ConfigValid n k) :
    execRank n k (lastBitmap n k) s =
      .next (s.posted 0#3 (BitVec.ofNat 32 (Nat.choose n k - 1))) := by
  obtain ⟨hk, hn⟩ := hok
  have hvalid := lastBitmap_valid hk hn
  have hlast := closedForm_lastBitmap hk hn le_rfl
  rw [bitsBelow_of_bitmapValid hn hvalid] at hlast
  rw [execRank_of_valid hrom ⟨hk, hn⟩ hvalid, ← hlast, Nat.add_sub_cancel]

/-! ### The obligations -/

/-- Settles O14: RANK answers the closed form, and an induction over the positions counts the smaller
bitmaps with it. -/
theorem rankCountsSmallerBitmaps : Obligations.RankCountsSmallerBitmaps := by
  intro n k b s hrom hok hb
  rw [smallerBitmaps_eq_closedForm hok.2 hb]
  refine ⟨execRank_of_valid hrom hok hb, ?_⟩
  calc closedForm b n < Nat.choose n k := closedForm_lt_of_bitmapValid hok.2 hb
    _ ≤ 601080390 := choose_le_of_le_maxBits hok.2 k
    _ < 2 ^ 32 := by decide

/-- Settles O15: the walk adds the term of each set bit it examines, and a valid bitmap has no set bit
above those. -/
theorem rankHasTheClosedForm : Obligations.RankHasTheClosedForm := by
  intro n k b s hrom hok hb
  obtain ⟨hlt, -⟩ := (bitmapValid_iff n k b).mp hb
  have hall : closedForm b 32 = closedForm b n :=
    closedForm_eq_of_clear hok.2 fun i => getLsbD_of_toNat_lt hlt
  exact (execRank_of_valid hrom hok hb).trans (by rw [← hall]; rfl)

/-- Settles O16: the closed form is below C(n, k), which is at most the largest entry of BTAB. -/
theorem rankIsBelowTheCoefficient : Obligations.RankIsBelowTheCoefficient := fun n k b _ hrom hok hb =>
  have hlt := closedForm_lt_of_bitmapValid hok.2 hb
  ⟨closedForm b n, execRank_of_valid hrom hok hb, hlt,
    hlt.trans ((choose_le_of_le_maxBits hok.2 k).trans_lt (by decide))⟩

/-- Settles O17, case by case: an edge of the triangle, and the two branches inside it. -/
theorem rankWalkFollowsItsCursor : Obligations.RankWalkFollowsItsCursor := by
  intro b row col total hrow
  refine ⟨fun hedge => rankWalk_of_edge hrow hedge b total, fun hpos hlt hbit => ?_,
    fun hpos hlt hbit => ?_⟩
  all_goals
    obtain ⟨r, rfl⟩ := Nat.exists_eq_succ_of_ne_zero (hpos.trans hlt).ne'
    obtain ⟨c, rfl⟩ := Nat.exists_eq_succ_of_ne_zero hpos.ne'
  · exact rankWalk_of_set (Nat.lt_of_succ_lt_succ hlt) hrow hbit total
  · exact rankWalk_of_clear (Nat.lt_of_succ_lt_succ hlt) hrow hbit total

/-- Settles O18: from a cursor of the triangle the walk adds less than the entry there, and
C(n, n - k) = C(n, k). -/
theorem rankWalkStaysInsideTheTriangle : Obligations.RankWalkStaysInsideTheTriangle := by
  rintro n k b ⟨hk, hn⟩
  obtain ⟨total, hwalk, hlt⟩ := exists_rankWalk b (Nat.sub_le n k) hn 0
  exact ⟨total, hwalk, by rwa [Nat.zero_add, Nat.choose_symm hk] at hlt⟩

/-- Settles O19: the bitmaps of k = 0 and of k = n are FIRST; an error is the first check that fails. -/
theorem rankCornerCases : Obligations.RankCornerCases := by
  intro n k b s
  refine ⟨fun hrom hok => ⟨execRank_firstBitmap hrom hok, execRank_lastBitmap hrom hok,
      execRank_firstBitmap hrom ⟨n.zero_le, hok.2⟩, execRank_firstBitmap hrom ⟨le_rfl, hok.2⟩⟩,
    fun hb => execRank_of_bitmapError s (by decide) (.inl (by simpa using hb)),
    fun hok hpop => execRank_of_bitmapError s hok (.inr hpop),
    fun hok ⟨p, hp, hbit⟩ => execRank_of_bitmapError s hok (.inl fun hfit => ?_),
    (ushiftRight_eq_zero_iff_lt b 32).mpr b.isLt,
    fun herr => execRank_of_configError s herr.symm⟩
  have hclear := getLsbD_of_toNat_lt ((ushiftRight_eq_zero_iff_lt b n).mp hfit) hp
  exact Bool.false_ne_true (hclear.symm.trans hbit)

end Sys2Proof.Machine

/-! PROOFS for 42_rank_decoder.md: UnrankWalk's cursor (R151 to R154) decides the bits of the bitmap whose
closed form is the rank (R150), RANK and UNRANK are inverse (R155), and UNRANK's corner cases (R156). -/

namespace Sys2Proof.Machine

/-! ### UnrankWalk, one step at a time (R151, R152, R154) -/

section Step

variable {row c rem : Nat} (hc : c ≤ row) (hrow : row ≤ 32)

include hc hrow

theorem unrankWalk_of_lt (hrem : rem < Nat.choose row c) (res : Word32) :
    unrankWalk romContent (row + 1) (c + 1) rem res = unrankWalk romContent row c rem res := by
  rw [unrankWalk_inside hc hrow, if_pos hrem]

theorem unrankWalk_of_le (hrem : Nat.choose row c ≤ rem) (res : Word32) :
    unrankWalk romContent (row + 1) (c + 1) rem res =
      unrankWalk romContent row (c + 1) (rem - Nat.choose row c) (setBit res row) := by
  rw [unrankWalk_inside hc hrow, if_neg hrem.not_gt]

end Step

theorem unrankWalk_of_col_zero (btab : List (List Word32)) (row rem : Nat) (res : Word32) :
    unrankWalk btab (row + 1) 0 rem res = unrankWalk btab row 0 rem (setBit res row) := rfl

/-- What a step of a walk that ends did: it set bit `row` at column 0, or read an entry and either left
the bit clear or set it. -/
theorem unrankWalk_succ_cases {btab : List (List Word32)} {row col rem : Nat} {res b : Word32}
    (h : unrankWalk btab (row + 1) col rem res = some b) :
    (col = 0 ∧ unrankWalk btab row 0 rem (setBit res row) = some b) ∨
      ∃ c e, col = c + 1 ∧ romRead btab row c = some e ∧
        ((rem < e.toNat ∧ unrankWalk btab row c rem res = some b) ∨
          (e.toNat ≤ rem ∧
            unrankWalk btab row (c + 1) (rem - e.toNat) (setBit res row) = some b)) := by
  cases col with
  | zero => exact .inl ⟨rfl, h⟩
  | succ c =>
    obtain ⟨e, hread, hstep⟩ := Option.bind_eq_some_iff.mp h
    refine .inr ⟨c, e, rfl, hread, ?_⟩
    split at hstep
    next hlt => exact .inl ⟨hlt, hstep⟩
    next hge => exact .inr ⟨Nat.le_of_not_lt hge, hstep⟩

/-! ### What the walk writes (R152, R153) -/

section Walk

variable {row col rem : Nat} {res b : Word32}

/-- Each step writes at most the bit of its own row, whatever the table holds. -/
theorem getLsbD_of_unrankWalk {btab : List (List Word32)} (hrow : row ≤ 32)
    (h : unrankWalk btab row col rem res = some b) {p : Nat} (hp : row ≤ p) :
    b.getLsbD p = res.getLsbD p := by
  induction row generalizing col rem res with
  | zero => cases h; rfl
  | succ row ih =>
    have hlow : row ≤ p := Nat.le_of_succ_le hp
    have hset : (setBit res row).getLsbD p = res.getLsbD p := by
      rw [getLsbD_setBit _ _ _ hrow, decide_eq_false (by omega), Bool.or_false]
    obtain ⟨-, hb⟩ | ⟨c, e, -, -, ⟨-, hb⟩ | ⟨-, hb⟩⟩ := unrankWalk_succ_cases h
    · exact (ih (Nat.le_of_succ_le hrow) hb hlow).trans hset
    · exact ih (Nat.le_of_succ_le hrow) hb hlow
    · exact (ih (Nat.le_of_succ_le hrow) hb hlow).trans hset

/-- From the invariant of R153, with the bits below its row still clear, the walk leaves as many of them
clear as its column says, and sets those whose closed form is the remaining rank: where it subtracts an
entry, that entry is the term of the bit it sets. -/
theorem bitsBelow_and_closedForm_of_unrankWalk (hrow : row ≤ 32) (hrem : rem < Nat.choose row col)
    (hres : ∀ i < row, res.getLsbD i = false)
    (h : unrankWalk romContent row col rem res = some b) :
    bitsBelow b row + col = row ∧ closedForm b row = rem := by
  induction row generalizing col rem res with
  | zero =>
    cases col with
    | zero => exact ⟨rfl, (Nat.lt_one_iff.mp hrem).symm⟩
    | succ c => exact absurd hrem (Nat.not_lt_zero rem)
  | succ row ih =>
    have hrow' : row ≤ 32 := Nat.le_of_succ_le hrow
    have hbelow : ∀ i < row, (setBit res row).getLsbD i = false := fun i hi => by
      rw [getLsbD_setBit _ _ _ hrow, hres i (hi.trans row.lt_succ_self), decide_eq_false hi.ne]
      rfl
    have hbit : (setBit res row).getLsbD row = true := by
      rw [getLsbD_setBit _ _ _ hrow, decide_eq_true rfl, Bool.or_true]
    obtain ⟨rfl, hb⟩ | ⟨c, e, rfl, hread, hstep⟩ := unrankWalk_succ_cases h
    · rw [Nat.choose_zero_right] at hrem
      obtain ⟨hcount, hform⟩ := ih hrow' (by rwa [Nat.choose_zero_right]) hbelow hb
      have hset := (getLsbD_of_unrankWalk hrow' hb le_rfl).trans hbit
      rw [bitsBelow_succ_of_set hset, closedForm_succ_of_set hset, hform,
        Nat.choose_eq_zero_of_lt (by omega)]
      omega
    · obtain ⟨hc, -, rfl⟩ := romRead_romContent_eq_some_iff.mp hread
      rw [toNat_ofNat_choose hrow'] at hstep
      rw [Nat.choose_succ_succ'] at hrem
      obtain ⟨hlt, hb⟩ | ⟨hle, hb⟩ := hstep
      · obtain ⟨hcount, hform⟩ := ih hrow' hlt (fun i hi => hres i (hi.trans row.lt_succ_self)) hb
        have hclear := (getLsbD_of_unrankWalk hrow' hb le_rfl).trans (hres row row.lt_succ_self)
        rw [bitsBelow_succ_of_clear hclear, closedForm_succ_of_clear hclear]
        omega
      · obtain ⟨hcount, hform⟩ := ih hrow' (by omega) hbelow hb
        have hset := (getLsbD_of_unrankWalk hrow' hb le_rfl).trans hbit
        have hterm : Nat.choose row (bitsBelow b row + 1) = Nat.choose row c :=
          Nat.choose_symm_of_eq_add (by omega)
        rw [bitsBelow_succ_of_set hset, closedForm_succ_of_set hset, hform, hterm]
        omega

end Walk

/-- The walk of UNRANK ends on the valid bitmap whose closed form is the rank. -/
theorem exists_unrankWalk_bitmap {n k r : Nat} (hok : ConfigValid n k) (hr : RankValid n k r) :
    ∃ b, unrankWalk romContent n (n - k) r 0 = some b ∧ BitmapValid n k b ∧ closedForm b n = r := by
  obtain ⟨hk, hn : n ≤ 32⟩ := hok
  have hrem : r < Nat.choose n (n - k) := by rwa [Nat.choose_symm hk]
  obtain ⟨b, hwalk⟩ := exists_unrankWalk hn hrem 0
  obtain ⟨hcount, hform⟩ :=
    bitsBelow_and_closedForm_of_unrankWalk hn hrem (fun i _ => BitVec.getLsbD_zero) hwalk
  have hhigh : ∀ i, n ≤ i → b.getLsbD i = false := fun i hi =>
    (getLsbD_of_unrankWalk hn hwalk hi).trans BitVec.getLsbD_zero
  refine ⟨b, hwalk, (bitmapValid_iff n k b).mpr ⟨?_, ?_⟩, hform⟩
  · exact Nat.lt_pow_two_of_testBit _ fun i hi => by rw [BitVec.testBit_toNat, hhigh i hi]
  · rw [popcount, bitsBelow_eq_of_clear hn hhigh]
    omega

/-! ### The closed form orders the valid bitmaps (R155) -/

section Order

variable {n k : Nat} {b b' : Word32} (hn : n ≤ 32) (hb : BitmapValid n k b) (hb' : BitmapValid n k b')

include hn hb hb'

theorem closedForm_le_of_toNat_le (h : b.toNat ≤ b'.toNat) : closedForm b n ≤ closedForm b' n := by
  rw [← smallerBitmaps_eq_closedForm hn hb, ← smallerBitmaps_eq_closedForm hn hb']
  exact Nat.count_monotone _ h

/-- Of two valid bitmaps with as many below them, neither is below the other. -/
theorem bitmap_eq_of_closedForm_eq (h : closedForm b n = closedForm b' n) : b = b' := by
  rw [← smallerBitmaps_eq_closedForm hn hb, ← smallerBitmaps_eq_closedForm hn hb'] at h
  exact BitVec.eq_of_toNat_eq
    (Nat.count_injective (by rwa [BitVec.ofNat_toNat]) (by rwa [BitVec.ofNat_toNat]) h)

end Order

theorem closedForm_firstBitmap {n k : Nat} (hk : k ≤ n) (hn : n ≤ 32) :
    closedForm (firstBitmap k) n = 0 := by
  have hk32 : k ≤ 32 := hk.trans hn
  have hhigh : ∀ i, k ≤ i → (firstBitmap k).getLsbD i = false := fun i =>
    getLsbD_of_toNat_lt (toNat_firstBitmap_lt le_rfl hk32)
  rw [closedForm_eq_of_clear hk hhigh]
  exact closedForm_eq_zero (bitsBelow_of_bitmapValid hk32 (firstBitmap_valid le_rfl hk32)) (.inl rfl)

/-! ### UNRANK, one equation per case (R151) -/

section Unrank

variable {n k r : Nat} {s : State}

theorem execUnrank_of_configError (herr : ConfigError n k) (r : Nat) (s : State) :
    execUnrank n k r s = .next (s.posted 2#3 0#32) := if_pos herr

section RomIntact

variable (hrom : s.RomIntact) (hok : ConfigValid n k)

include hrom hok

theorem execUnrank_of_configValid :
    execUnrank n k r s =
      if Nat.choose n k ≤ r then .next (s.posted 3#3 0#32)
      else answer (unrankWalk romContent n (n - k) r 0) s := by
  obtain ⟨hk, hn⟩ := hok
  rw [execUnrank, if_neg (not_or.mpr ⟨hn.not_gt, hk.not_gt⟩), hrom, romRead_romContent hk hn]
  dsimp only
  rw [toNat_ofNat_choose hn]
  rfl

theorem execUnrank_of_rankError (hr : Nat.choose n k ≤ r) :
    execUnrank n k r s = .next (s.posted 3#3 0#32) := by
  rw [execUnrank_of_configValid hrom hok, if_pos hr]

theorem exists_execUnrank_bitmap (hr : RankValid n k r) :
    ∃ b, execUnrank n k r s = .next (s.posted 0#3 b) ∧ BitmapValid n k b ∧ closedForm b n = r := by
  obtain ⟨b, hwalk, hvalid, hform⟩ := exists_unrankWalk_bitmap hok hr
  refine ⟨b, ?_, hvalid, hform⟩
  rw [execUnrank_of_configValid hrom hok, if_neg hr.not_ge, hwalk]
  rfl

/-- UNRANK answers a valid bitmap from its closed form: no other valid bitmap has the same one. -/
theorem execUnrank_closedForm {b : Word32} (hb : BitmapValid n k b) :
    execUnrank n k (closedForm b n) s = .next (s.posted 0#3 b) := by
  obtain ⟨b', hexec, hb', hform⟩ :=
    exists_execUnrank_bitmap hrom hok (closedForm_lt_of_bitmapValid hok.2 hb)
  rwa [bitmap_eq_of_closedForm_eq hok.2 hb' hb hform] at hexec

/-- A bitmap that UNRANK answers for a valid rank is valid, and has the rank as its closed form. -/
theorem bitmap_of_execUnrank {b : Word32} (hr : RankValid n k r)
    (h : execUnrank n k r s = .next (s.posted 0#3 b)) :
    BitmapValid n k b ∧ closedForm b n = r := by
  obtain ⟨b', hexec, hspec⟩ := exists_execUnrank_bitmap hrom hok hr
  have hposted := Host.Outcome.next.inj (hexec.symm.trans h)
  have hdata : b' = b := congrArg State.rspData hposted
  exact hdata ▸ hspec

theorem execUnrank_firstBitmap :
    execUnrank n k 0 s = .next (s.posted 0#3 (firstBitmap k)) := by
  have hfirst := execUnrank_closedForm hrom hok (firstBitmap_valid hok.1 hok.2)
  rwa [closedForm_firstBitmap hok.1 hok.2] at hfirst

theorem execUnrank_lastBitmap :
    execUnrank n k (Nat.choose n k - 1) s = .next (s.posted 0#3 (lastBitmap n k)) := by
  have hvalid := lastBitmap_valid hok.1 hok.2
  have hlast := closedForm_lastBitmap hok.1 hok.2 le_rfl
  rw [bitsBelow_of_bitmapValid hok.2 hvalid] at hlast
  rw [← hlast, Nat.add_sub_cancel]
  exact execUnrank_closedForm hrom hok hvalid

end RomIntact

end Unrank

/-! ### The obligations -/

/-- Settles O21: the walk ends on the valid bitmap whose closed form is the rank, and the closed form
counts the valid bitmaps below. -/
theorem unrankAnswersTheBitmapOfTheRank : Obligations.UnrankAnswersTheBitmapOfTheRank := by
  intro n k r s hrom hok hr
  obtain ⟨b, hexec, hvalid, hform⟩ := exists_execUnrank_bitmap hrom hok hr
  exact ⟨b, hexec, hvalid, (smallerBitmaps_eq_closedForm hok.2 hvalid).trans hform⟩

/-- Settles O22: RANK answers the closed form of a bitmap and UNRANK the bitmap of a closed form, which
orders the valid bitmaps as their values do. -/
theorem rankAndUnrankAreInverse : Obligations.RankAndUnrankAreInverse := by
  intro n k s hrom hok
  refine ⟨fun r hr => ?_, fun b hb => ?_, fun r r' b b' hlt hr' h h' => ?_⟩
  · obtain ⟨b, hexec, hvalid, rfl⟩ := exists_execUnrank_bitmap hrom hok hr
    exact ⟨b, hvalid, hexec, execRank_of_valid hrom hok hvalid⟩
  · exact ⟨closedForm b n, closedForm_lt_of_bitmapValid hok.2 hb, execRank_of_valid hrom hok hb,
      execUnrank_closedForm hrom hok hb⟩
  · obtain ⟨hvalid, rfl⟩ := bitmap_of_execUnrank hrom hok (hlt.trans hr') h
    obtain ⟨hvalid', rfl⟩ := bitmap_of_execUnrank hrom hok hr' h'
    exact Nat.lt_of_not_le fun hle => hlt.not_ge (closedForm_le_of_toNat_le hok.2 hvalid' hvalid hle)

/-- Settles O23, case by case: the column is above 0 and the entry there decides, or it is 0. -/
theorem unrankWalkFollowsItsCursor : Obligations.UnrankWalkFollowsItsCursor := by
  intro row col rem res hrow hcol
  refine ⟨rfl, fun hpos hrem => ?_, fun hpos hrem => ?_, fun hzero => ?_⟩
  · obtain ⟨c, rfl⟩ := Nat.exists_eq_succ_of_ne_zero hpos.ne'
    exact unrankWalk_of_lt (Nat.le_of_succ_le_succ hcol) hrow.le hrem res
  · obtain ⟨c, rfl⟩ := Nat.exists_eq_succ_of_ne_zero hpos.ne'
    exact unrankWalk_of_le (Nat.le_of_succ_le_succ hcol) hrow.le hrem res
  · subst hzero
    exact unrankWalk_of_col_zero romContent row rem res

/-- Settles O24: the invariant keeps every read inside the triangle, and no step writes at or above the
row the walk starts from. -/
theorem unrankWalkStaysInsideTheTriangle : Obligations.UnrankWalkStaysInsideTheTriangle := by
  intro row col rem res _ hrow hrem
  obtain ⟨b, hwalk⟩ := exists_unrankWalk hrow hrem res
  exact ⟨b, hwalk, fun _ => getLsbD_of_unrankWalk hrow hwalk⟩

/-- Settles O25: ranks 0 and C(n, k) - 1 are those of FIRST and LAST, which at k = 0 and k = n are one
bitmap; an error is the first check that fails. -/
theorem unrankCornerCases : Obligations.UnrankCornerCases := by
  intro n k r s
  refine ⟨fun hrom hok => ?_, fun hrom => ?_, fun herr => execUnrank_of_configError herr.symm r s⟩
  · have hnone : ConfigValid n 0 := ⟨n.zero_le, hok.2⟩
    have hall : ConfigValid n n := ⟨le_rfl, hok.2⟩
    exact ⟨execUnrank_firstBitmap hrom hok, execUnrank_lastBitmap hrom hok,
      execUnrank_firstBitmap hrom hnone, execUnrank_firstBitmap hrom hall,
      fun hr => ⟨execUnrank_of_rankError hrom hnone (by rwa [Nat.choose_zero_right]),
        execUnrank_of_rankError hrom hall (by rwa [Nat.choose_self])⟩,
      execUnrank_of_rankError hrom hok⟩
  · have hlast := execUnrank_lastBitmap hrom (n := 32) (k := 16) (by decide)
    have hrank : Nat.choose 32 16 - 1 = 601080389 := by decide
    have hbitmap : lastBitmap 32 16 = 0xFFFF0000#32 := by decide
    rwa [hrank, hbitmap] at hlast

end Sys2Proof.Machine

/-! PROOFS for 43_generator.md: GSTART and GNEXT by phase (R170, R172, R174), the arithmetic form of the
successor step (R178), which adds 1 to the rank and so delivers the next valid bitmap (R176), and the whole
sequence (R171, R179). -/

namespace Sys2Proof.Machine

/-! ### The two ends of a lowest run (R178) -/

section LowestRun

variable {v : Word32} {p q : Nat} (h : LowestRun v p q)

include h

/-- Below its end, a value with a lowest run is a LAST of q bits. -/
theorem LowestRun.getLsbD_eq_lastBitmap (hq : q ≤ 32) {i : Nat} (hi : i < q) :
    v.getLsbD i = (lastBitmap q (q - p)).getLsbD i := by
  have hpq := h.lt
  rw [getLsbD_lastBitmap (Nat.sub_le q p) hq]
  by_cases hip : i < p
  · rw [h.clear_below i hip, eq_comm, decide_eq_false_iff_not]
    omega
  · rw [h.set i (Nat.le_of_not_lt hip) hi, eq_comm, decide_eq_true_iff]
    omega

/-- Below the same position, its successor is a FIRST of one set bit fewer. -/
theorem LowestRun.getLsbD_nextPattern_eq_firstBitmap (hq : q < 32) {i : Nat} (hi : i < q) :
    (nextPattern v).getLsbD i = (firstBitmap (q - p - 1)).getLsbD i := by
  rw [h.getLsbD_nextPattern hq (hi.trans hq), if_neg hi.not_gt, firstBitmap_eq_lastBitmap,
    getLsbD_lastBitmap le_rfl (by omega), decide_eq_decide]
  omega

theorem LowestRun.getLsbD_nextPattern_end (hq : q < 32) : (nextPattern v).getLsbD q = true := by
  rw [h.getLsbD_nextPattern hq hq, if_neg (Nat.lt_irrefl q), decide_eq_true (.inl rfl)]

theorem LowestRun.getLsbD_nextPattern_above (hq : q < 32) {i : Nat} (hqi : q + 1 ≤ i) (hi : i < 32) :
    (nextPattern v).getLsbD i = v.getLsbD i := by
  rw [h.getLsbD_nextPattern hq hi, if_pos (Nat.lt_of_succ_le hqi)]

end LowestRun

/-! ### The arithmetic form of NextPattern (R178) -/

/-- Values that agree from bit `lo` on differ by what their bits below `lo` differ by. -/
theorem toNat_mod_congr_from {v w : Word32} {lo m : Nat} (hlo : lo ≤ m)
    (hbits : ∀ i, lo ≤ i → i < m → v.getLsbD i = w.getLsbD i) :
    v.toNat % 2 ^ m + w.toNat % 2 ^ lo = w.toNat % 2 ^ m + v.toNat % 2 ^ lo := by
  induction m, hlo using Nat.le_induction with
  | base => exact Nat.add_comm ..
  | succ m hm ih =>
    have hprev := ih fun i hi him => hbits i hi (Nat.lt_succ_of_lt him)
    rw [toNat_mod_two_pow_succ, toNat_mod_two_pow_succ, hbits m hm (Nat.lt_succ_self m)]
    omega

theorem toNat_mod_congr {v w : Word32} {m : Nat} (hbits : ∀ i < m, v.getLsbD i = w.getLsbD i) :
    v.toNat % 2 ^ m = w.toNat % 2 ^ m := by
  have hall := toNat_mod_congr_from m.zero_le fun i _ => hbits i
  rwa [pow_zero, Nat.mod_one, Nat.mod_one] at hall

section LowestRun

variable {v : Word32} {p q : Nat} (h : LowestRun v p q)

include h

theorem LowestRun.toNat_mod (hq : q ≤ 32) : v.toNat % 2 ^ q = 2 ^ q - 2 ^ p := by
  have hpq := h.lt
  have hle := Nat.sub_le q p
  rw [toNat_mod_congr fun i => h.getLsbD_eq_lastBitmap hq,
    Nat.mod_eq_of_lt (toNat_lastBitmap_lt hle hq), toNat_lastBitmap hle hq,
    two_pow_sub_one_shiftLeft hle, Nat.sub_sub_self hpq.le]

theorem LowestRun.toNat_nextPattern_mod (hq : q < 32) :
    (nextPattern v).toNat % 2 ^ q = 2 ^ (q - p - 1) - 1 := by
  have hle : q - p - 1 ≤ q := by omega
  rw [toNat_mod_congr fun i => h.getLsbD_nextPattern_eq_firstBitmap hq,
    Nat.mod_eq_of_lt (toNat_firstBitmap_lt hle hq.le), toNat_firstBitmap (hle.trans hq.le)]

/-- The step trades the lowest run for the bit above it and the run's other bits at the bottom. -/
theorem LowestRun.toNat_nextPattern (hq : q < 32) :
    (nextPattern v).toNat = v.toNat - (2 ^ q - 2 ^ p) + 2 ^ q + 2 ^ (q - p - 1) - 1 := by
  have hlow := h.toNat_mod hq.le
  have hnext := h.toNat_nextPattern_mod hq
  have hhigh := toNat_mod_congr_from (Nat.succ_le_of_lt hq) fun i => h.getLsbD_nextPattern_above hq
  rw [Nat.mod_eq_of_lt v.isLt, Nat.mod_eq_of_lt (nextPattern v).isLt, toNat_mod_two_pow_succ v q,
    toNat_mod_two_pow_succ (nextPattern v) q, hlow, hnext, h.clear_end,
    h.getLsbD_nextPattern_end hq, Bool.toNat_true, Bool.toNat_false] at hhigh
  have hle : 2 ^ q - 2 ^ p ≤ v.toNat := hlow ▸ Nat.mod_le v.toNat (2 ^ q)
  have hpos : 0 < 2 ^ (q - p - 1) := Nat.two_pow_pos _
  omega

end LowestRun

/-! ### NextPattern adds 1 to the rank (R176, R179) -/

/-- Values that agree from bit `lo` on, with as many set bits below it, have closed forms that differ by
what those of their bits below `lo` differ by. -/
theorem closedForm_congr_from {v w : Word32} {lo m : Nat} (hlo : lo ≤ m)
    (hbelow : bitsBelow v lo = bitsBelow w lo)
    (hbits : ∀ i, lo ≤ i → i < m → v.getLsbD i = w.getLsbD i) :
    closedForm v m + closedForm w lo = closedForm w m + closedForm v lo := by
  induction m, hlo using Nat.le_induction with
  | base => exact Nat.add_comm ..
  | succ m hm ih =>
    have hbits' : ∀ i, lo ≤ i → i < m → v.getLsbD i = w.getLsbD i :=
      fun i hi him => hbits i hi (Nat.lt_succ_of_lt him)
    have hprev := ih hbits'
    have hbit := hbits m hm (Nat.lt_succ_self m)
    cases hv : v.getLsbD m with
    | false => rwa [closedForm_succ_of_clear hv, closedForm_succ_of_clear (hbit ▸ hv)]
    | true =>
      rw [closedForm_succ_of_set hv, closedForm_succ_of_set (hbit ▸ hv),
        bitsBelow_congr_from hm hbelow hbits']
      omega

theorem closedForm_congr {v w : Word32} {m : Nat} (hbits : ∀ i < m, v.getLsbD i = w.getLsbD i) :
    closedForm v m = closedForm w m :=
  closedForm_congr_from m.zero_le rfl fun i _ => hbits i

section LowestRun

variable {v : Word32} {p q : Nat} (h : LowestRun v p q) (hq : q < 32)

include h hq

/-- The run's terms add up to one less than the term of the bit above it. -/
theorem LowestRun.closedForm_end : closedForm v q + 1 = Nat.choose q (q - p) := by
  have hle := Nat.sub_le q p
  rw [closedForm_congr fun i => h.getLsbD_eq_lastBitmap hq.le, closedForm_lastBitmap hle hq.le le_rfl,
    bitsBelow_of_bitmapValid hq.le (lastBitmap_valid hle hq.le)]

/-- The bits at the bottom add nothing; the term of the bit above the run is left. -/
theorem LowestRun.closedForm_nextPattern_end :
    closedForm (nextPattern v) (q + 1) = Nat.choose q (q - p) := by
  have hpq := h.lt
  rw [closedForm_succ_of_set (h.getLsbD_nextPattern_end hq), h.bitsBelow_nextPattern hq,
    closedForm_congr fun i => h.getLsbD_nextPattern_eq_firstBitmap hq,
    closedForm_firstBitmap (by omega) hq.le, Nat.zero_add, Nat.sub_add_cancel (by omega)]

theorem LowestRun.bitsBelow_nextPattern_succ :
    bitsBelow (nextPattern v) (q + 1) = bitsBelow v (q + 1) := by
  have hpq := h.lt
  rw [bitsBelow_succ_of_set (h.getLsbD_nextPattern_end hq), bitsBelow_succ_of_clear h.clear_end,
    h.bitsBelow_nextPattern hq, h.bitsBelow_end hq.le, Nat.sub_add_cancel (by omega)]

theorem LowestRun.closedForm_nextPattern {n : Nat} (hqn : q < n) (hn : n ≤ 32) :
    closedForm (nextPattern v) n = closedForm v n + 1 := by
  have hhigh := closedForm_congr_from (Nat.succ_le_of_lt hqn) (h.bitsBelow_nextPattern_succ hq)
    fun i hqi hi => h.getLsbD_nextPattern_above hq hqi (hi.trans_le hn)
  rw [h.closedForm_nextPattern_end hq, closedForm_succ_of_clear h.clear_end,
    ← h.closedForm_end hq] at hhigh
  omega

end LowestRun

section Successor

variable {n k : Nat} {v : Word32} (hn : n ≤ 32) (hv : BitmapValid n k v)

include hn hv

theorem closedForm_nextPattern (hlast : v ≠ lastBitmap n k) :
    closedForm (nextPattern v) n = closedForm v n + 1 := by
  obtain ⟨q, hqn, hrun⟩ := exists_lowestRun_lt hn hv hlast
  exact hrun.closedForm_nextPattern (hqn.trans_le hn) hqn hn

/-- The closed form orders the valid bitmaps as their values do. -/
theorem closedForm_lt_iff {c : Word32} (hc : BitmapValid n k c) :
    closedForm v n < closedForm c n ↔ v.toNat < c.toNat := by
  refine ⟨fun hlt => Nat.lt_of_not_le fun hle => hlt.not_ge (closedForm_le_of_toNat_le hn hc hv hle),
    fun hlt => (closedForm_le_of_toNat_le hn hv hc hlt.le).lt_of_ne fun heq => hlt.ne ?_⟩
  rw [bitmap_eq_of_closedForm_eq hn hv hc heq]

theorem lt_nextPattern (hlast : v ≠ lastBitmap n k) : v.toNat < (nextPattern v).toNat := by
  rw [← closedForm_lt_iff hn hv (nextPattern_valid hn hv hlast), closedForm_nextPattern hn hv hlast]
  exact Nat.lt_succ_self _

/-- No rank lies between that of a bitmap and that of its successor. -/
theorem nextPattern_le (hlast : v ≠ lastBitmap n k) {c : Word32} (hc : BitmapValid n k c)
    (hlt : v.toNat < c.toNat) : (nextPattern v).toNat ≤ c.toNat := by
  have hrank := (closedForm_lt_iff hn hv hc).mpr hlt
  refine Nat.le_of_not_lt fun hgt => ?_
  rw [← closedForm_lt_iff hn hc (nextPattern_valid hn hv hlast), closedForm_nextPattern hn hv hlast]
    at hgt
  omega

end Successor

theorem closedForm_lastBitmap_add_one {n k : Nat} (hok : ConfigValid n k) :
    closedForm (lastBitmap n k) n + 1 = Nat.choose n k := by
  obtain ⟨hk, hn⟩ := hok
  rw [closedForm_lastBitmap hk hn le_rfl, bitsBelow_of_bitmapValid hn (lastBitmap_valid hk hn)]

/-! ### GNEXT in ACTIVE, in the terms of R174 -/

section Gnext

variable {s : State} (hgen : s.params.hasGen = true) (hst : s.genSt = .active)
  (hseq : SequenceValid s.genN s.genK s.genCur)

include hgen hst hseq

theorem execGnext_of_last (hlast : s.genCur = lastBitmap s.genN.toNat s.genK.toNat) :
    execGnext s = .next (respond .sequenceEnd 0 (finishSequence s)) :=
  execGnext_of_end hgen hst ((if_pos hseq).trans (if_pos hlast))

theorem execGnext_of_ne_last (hlast : s.genCur ≠ lastBitmap s.genN.toNat s.genK.toNat) :
    execGnext s =
      .next (respond .ok (nextPattern s.genCur) (advanceSequence (nextPattern s.genCur) s)) :=
  execGnext_of_successor hgen hst ((if_pos hseq).trans (if_neg hlast))

end Gnext

/-! ### A sequence, response by response (R171, R179) -/

/-- The m-th response of the sequence of (n, k) has been OK, with the bitmap of rank m. -/
structure Delivering (n k m : Nat) (t : State) : Prop where
  present : t.params.hasGen = true
  rom : t.RomIntact
  genN : t.genN.toNat = n
  genK : t.genK.toNat = k
  active : t.genSt = .active
  status : t.rspStatus = 0#3
  data : t.rspData = t.genCur
  valid : BitmapValid n k t.genCur
  rank : closedForm t.genCur n = m

/-- The end of the sequence of (n, k) has been reported. -/
structure Ended (n k : Nat) (t : State) : Prop where
  present : t.params.hasGen = true
  done : t.genSt = .done
  status : t.rspStatus = 5#3
  data : t.rspData = 0#32
  last : t.genCur = lastBitmap n k

/-- Where a sequence stands after its m-th response. -/
def SequenceAt (n k m : Nat) (t : State) : Prop :=
  Delivering n k m t ∨ Nat.choose n k ≤ m ∧ Ended n k t

theorem Ended.exists_execGnext {n k : Nat} {t : State} (h : Ended n k t) :
    ∃ u, exec .gnext t = .next u ∧ Ended n k u :=
  ⟨_, execGnext_of_done h.present h.done, h.present, h.done, rfl, rfl, h.last⟩

theorem execAll_cons {i : Instr} {s t : State} (h : exec i s = .next t) (is : List Instr) :
    execAll (i :: is) s = execAll is t := by
  rw [execAll, h]

section Sequence

variable {n k m : Nat} {s t : State} (hok : ConfigValid n k)

include hok

theorem exists_execGstart_delivering (hgen : s.params.hasGen = true) (hrom : s.RomIntact) :
    ∃ t, exec (.gstart n k) s = .next t ∧ Delivering n k 0 t := by
  obtain ⟨hk, hn : n ≤ 32⟩ := hok
  refine ⟨_, execGstart_of_valid hgen (not_or.mpr ⟨hn.not_gt, hk.not_gt⟩), ?_⟩
  exact
    { present := hgen
      rom := hrom
      genN := Nat.mod_eq_of_lt (by omega)
      genK := Nat.mod_eq_of_lt (by omega)
      active := rfl
      status := rfl
      data := rfl
      valid := firstBitmap_valid hk hn
      rank := closedForm_firstBitmap hk hn }

theorem Delivering.sequenceValid (h : Delivering n k m t) : SequenceValid t.genN t.genK t.genCur := by
  rw [SequenceValid, h.genN, h.genK]
  exact ⟨hok, h.valid⟩

theorem Delivering.lt_choose (h : Delivering n k m t) : m < Nat.choose n k :=
  h.rank ▸ closedForm_lt_of_bitmapValid hok.2 h.valid

theorem Delivering.exists_execGnext_of_last (h : Delivering n k m t)
    (hlast : t.genCur = lastBitmap n k) :
    ∃ u, exec .gnext t = .next u ∧ SequenceAt n k (m + 1) u := by
  have hcount := closedForm_lastBitmap_add_one hok
  rw [← hlast, h.rank] at hcount
  have hend : t.genCur = lastBitmap t.genN.toNat t.genK.toNat := by rw [h.genN, h.genK, hlast]
  exact ⟨_, execGnext_of_last h.present h.active (h.sequenceValid hok) hend,
    .inr ⟨hcount.ge, h.present, rfl, rfl, rfl, hlast⟩⟩

theorem Delivering.exists_execGnext_of_ne_last (h : Delivering n k m t)
    (hlast : t.genCur ≠ lastBitmap n k) :
    ∃ u, exec .gnext t = .next u ∧ SequenceAt n k (m + 1) u := by
  have hmore : t.genCur ≠ lastBitmap t.genN.toNat t.genK.toNat := by rwa [h.genN, h.genK]
  refine ⟨_, execGnext_of_ne_last h.present h.active (h.sequenceValid hok) hmore, .inl ?_⟩
  exact
    { present := h.present
      rom := h.rom
      genN := h.genN
      genK := h.genK
      active := h.active
      status := rfl
      data := rfl
      valid := nextPattern_valid hok.2 h.valid hlast
      rank := (closedForm_nextPattern hok.2 h.valid hlast).trans (congrArg (· + 1) h.rank) }

/-- Each GNEXT takes the sequence one response further. -/
theorem SequenceAt.exists_execGnext (h : SequenceAt n k m t) :
    ∃ u, exec .gnext t = .next u ∧ SequenceAt n k (m + 1) u := by
  obtain hdel | ⟨hle, hend⟩ := h
  · by_cases hlast : t.genCur = lastBitmap n k
    · exact hdel.exists_execGnext_of_last hok hlast
    · exact hdel.exists_execGnext_of_ne_last hok hlast
  · obtain ⟨u, hexec, hended⟩ := hend.exists_execGnext
    exact ⟨u, hexec, .inr ⟨Nat.le_succ_of_le hle, hended⟩⟩

theorem SequenceAt.exists_execAll_gnext (j : Nat) (h : SequenceAt n k m t) :
    ∃ u, execAll (List.replicate j .gnext) t = .next u ∧ SequenceAt n k (m + j) u := by
  induction j generalizing m t with
  | zero => exact ⟨t, rfl, h⟩
  | succ j ih =>
    obtain ⟨t', hexec, hat⟩ := h.exists_execGnext hok
    obtain ⟨u, hrun, hu⟩ := ih hat
    refine ⟨u, ?_, by rwa [Nat.add_right_comm] at hu⟩
    rw [List.replicate_succ, execAll_cons hexec, hrun]

theorem exists_execAll_sequence (m : Nat) (hgen : s.params.hasGen = true) (hrom : s.RomIntact) :
    ∃ t, execAll (.gstart n k :: List.replicate m .gnext) s = .next t ∧ SequenceAt n k m t := by
  obtain ⟨t, hstart, hdel⟩ := exists_execGstart_delivering hok hgen hrom
  obtain ⟨u, hrun, hu⟩ := SequenceAt.exists_execAll_gnext hok m (.inl hdel)
  exact ⟨u, by rw [execAll_cons hstart, hrun], by rwa [Nat.zero_add] at hu⟩

end Sequence

/-! ### The obligations -/

/-- Settles O32: the successor is valid, and its rank is the next one, so no valid bitmap lies
between. -/
theorem gnextDeliversTheSuccessor : Obligations.GnextDeliversTheSuccessor := by
  intro s hgen hst hseq hlast
  have hexec := execGnext_of_ne_last hgen hst hseq hlast
  obtain ⟨⟨-, hn⟩, hcur⟩ := hseq
  exact ⟨nextPattern s.genCur, hexec, nextPattern_valid hn hcur hlast, lt_nextPattern hn hcur hlast,
    fun _ => nextPattern_le hn hcur hlast⟩

/-- Settles O33, by induction over the GNEXTs: each delivers the bitmap of the next rank, up to LAST at
rank C(n, k) - 1, and reports the end from there on. -/
theorem generatorDeliversTheWholeSequence : Obligations.GeneratorDeliversTheWholeSequence := by
  intro n k m s hgen hrom hok
  obtain ⟨t, hrun, hdel | ⟨hle, hend⟩⟩ := exists_execAll_sequence hok m hgen hrom
  · refine ⟨fun _ => ⟨t, hrun, hdel.active, hdel.status, hdel.data, ?_, ?_⟩,
      fun hle => absurd (hdel.lt_choose hok) hle.not_gt⟩
    · exact hdel.rank ▸ execUnrank_closedForm hdel.rom hok hdel.valid
    · exact hdel.rank ▸ execRank_of_valid hdel.rom hok hdel.valid
  · exact ⟨fun hlt => absurd hlt hle.not_gt,
      fun _ => ⟨t, hrun, hend.done, hend.status, hend.data, hend.last⟩⟩

/-- Settles O31: the lowest run of a valid bitmap other than LAST ends below bit n. -/
theorem nextPatternHasItsArithmeticForm : Obligations.NextPatternHasItsArithmeticForm := by
  rintro n k v ⟨-, hn⟩ hv hlast
  obtain ⟨q, hqn, hrun⟩ := exists_lowestRun_lt hn hv hlast
  exact ⟨q, hrun.lt, hqn, hrun.clear_end, hrun.set, hrun.toNat_nextPattern (hqn.trans_le hn)⟩

/-- Settles O28, by GSTART's equation per case and its row of match and mask. -/
theorem gstartStartsTheSequence : Obligations.GstartStartsTheSequence := fun s =>
  ⟨fun _ _ hgen hk hn => execGstart_of_valid hgen (not_or.mpr ⟨hn.not_gt, hk.not_gt⟩),
    fun _ _ hgen herr => execGstart_of_configError hgen herr,
    fun _ _ hgen => execGstart_of_absent hgen,
    fun _ h => runWord_of_decode_ok (decode_of_and_opcodeMask (op := 4) (by decide) h) s⟩

/-- Settles O29, by GNEXT's equation per phase and its row of match and mask. -/
theorem gnextFollowsItsPhase : Obligations.GnextFollowsItsPhase := by
  refine fun s => ⟨execGnext_of_idle, execGnext_of_done, execGnext_of_last, ?_, execGnext_of_absent,
    fun _ h => runWord_of_decode_ok (decode_of_and_opcodeMask (op := 5) (by decide) h) s⟩
  rintro hgen hst hseq hlast _ _ rfl rfl
  exact execGnext_of_ne_last hgen hst hseq hlast

/-- Settles O34, by the absent case of GSTART and of GNEXT. -/
theorem absentGeneratorIsIllegal : Obligations.AbsentGeneratorIsIllegal :=
  ⟨fun _ hgen => ⟨fun _ _ => execGstart_of_absent hgen, execGnext_of_absent hgen⟩, rfl⟩

end Sys2Proof.Machine

/-! PROOFS for 60_exceptions.md: the one response to a command (R200, R201), the errors it reports (R204,
R205), the order in which its status is chosen (R206), and what an error leaves unchanged (R207). -/

namespace Sys2Proof.Machine

/-! ### The response to a performed command (R200, R201, R207) -/

theorem Posts.responseConsistent {u t : State} (h : Posts u t) : t.ResponseConsistent := by
  obtain ⟨status, data, rfl, hdata⟩ := h
  exact ⟨statusCode_le status, fun hne => hdata fun hok => hne (congrArg statusCode hok)⟩

/-- A response other than OK carries no data, so its status is all that it adds to the state. -/
theorem Posts.eq_posted {u t : State} (h : Posts u t) (hne : t.rspStatus ≠ 0#3) :
    t = u.posted t.rspStatus 0#32 := by
  obtain ⟨status, data, rfl, hdata⟩ := h
  obtain rfl : data = 0 := hdata fun hok => hne (congrArg statusCode hok)
  rfl

/-- Only a command that answers OK or END writes more than its response. -/
theorem exec_posts_or_ok_or_end {i : Instr} {s t : State} (h : exec i s = .next t) :
    Posts s t ∨ t.rspStatus = 0#3 ∨ t.rspStatus = 5#3 := by
  cases i with
  | binom row col => exact .inl (posts_of_exec_tableOnly rfl h)
  | rank n k b => exact .inl (posts_of_exec_tableOnly rfl h)
  | unrank n k r => exact .inl (posts_of_exec_tableOnly rfl h)
  | gstart n k =>
    obtain ⟨-, rfl⟩ | ⟨-, -, rfl⟩ | ⟨-, -, rfl⟩ := execGstart_cases h
    · exact .inl (posts_noData ..)
    · exact .inl (posts_noData ..)
    · exact .inr (.inl rfl)
  | gnext =>
    obtain ⟨-, rfl⟩ | ⟨-, -, rfl⟩ | ⟨-, -, rfl⟩ | ⟨-, -, -, rfl⟩ | ⟨-, -, v, -, rfl⟩ :=
      execGnext_cases h
    · exact .inl (posts_noData ..)
    · exact .inl (posts_noData ..)
    · exact .inl (posts_noData ..)
    · exact .inr (.inr rfl)
    · exact .inr (.inl rfl)

theorem runWord_posts_or_ok_or_end {w : CmdWord} {s t : State} (h : runWord w s = .next t) :
    Posts s t ∨ t.rspStatus = 0#3 ∨ t.rspStatus = 5#3 := by
  obtain ⟨i, -, hexec⟩ | ⟨e, -, rfl⟩ := runWord_cases h
  · exact exec_posts_or_ok_or_end hexec
  · exact .inl (posts_noData ..)

/-! ### The status of each command, by the checks it makes in turn (R204 to R206) -/

section Status
variable {n k : Nat} {s t : State}

theorem execBinom_status (h : execBinom n k s = .next t) :
    t.rspStatus = if 32 < n ∨ n < k then 2#3 else 0#3 := by
  obtain ⟨herr, rfl⟩ | ⟨hok, v, -, rfl⟩ := execBinom_cases h
  · exact (if_pos herr).symm
  · exact (if_neg hok).symm

theorem execRank_status {b : Word32} (h : execRank n k b s = .next t) :
    t.rspStatus =
      if 32 < n ∨ n < k then 2#3 else if BitmapError n k b then 3#3 else 0#3 := by
  obtain ⟨herr, rfl⟩ | ⟨hok, hbad, rfl⟩ | ⟨hok, hfit, total, -, rfl⟩ := execRank_cases h
  · exact (if_pos herr).symm
  · exact ((if_neg hok).trans (if_pos hbad)).symm
  · exact ((if_neg hok).trans (if_neg hfit)).symm

/-- Over the intact table, the entry that UNRANK judges the rank by is C(n, k). -/
theorem execUnrank_status {r : Nat} (hrom : s.RomIntact) (h : execUnrank n k r s = .next t) :
    t.rspStatus =
      if 32 < n ∨ n < k then 2#3 else if Nat.choose n k ≤ r then 3#3 else 0#3 := by
  obtain ⟨herr, rfl⟩ | ⟨hok, count, hcount, hrest⟩ := execUnrank_cases h
  · exact (if_pos herr).symm
  · rw [hrom] at hcount
    obtain ⟨-, hn, rfl⟩ := romRead_romContent_eq_some_iff.mp hcount
    rw [toNat_ofNat_choose hn] at hrest
    obtain ⟨hle, rfl⟩ | ⟨hlt, b, -, rfl⟩ := hrest
    · exact ((if_neg hok).trans (if_pos hle)).symm
    · exact ((if_neg hok).trans (if_neg hlt.not_ge)).symm

theorem execGstart_status (hgen : s.params.hasGen = true) (h : execGstart n k s = .next t) :
    t.rspStatus = if 32 < n ∨ n < k then 2#3 else 0#3 := by
  obtain ⟨hno, -⟩ | ⟨-, herr, rfl⟩ | ⟨-, hok, rfl⟩ := execGstart_cases h
  · exact absurd hgen (Bool.eq_false_iff.mp hno)
  · exact (if_pos herr).symm
  · exact (if_neg hok).symm

theorem ne_lastBitmap_of_nextElement {a b : Field6} {cur v : Word32} (hv : SequenceValid a b cur)
    (h : nextElement a b cur = some v) : cur ≠ lastBitmap a.toNat b.toNat := by
  intro hlast
  rw [nextElement, if_pos hv, if_pos hlast] at h
  cases h

/-- In DONE, too, GEN_CUR is LAST (10_state.md R40): the end of the sequence is told by it alone. -/
theorem execGnext_status (hgen : s.params.hasGen = true) (hs : s.GeneratorConsistent)
    (h : execGnext s = .next t) :
    t.rspStatus =
      if s.genSt = .idle then 4#3
      else if s.genCur = lastBitmap s.genN.toNat s.genK.toNat then 5#3 else 0#3 := by
  obtain ⟨hno, -⟩ | ⟨-, hidle, rfl⟩ | ⟨-, hdone, rfl⟩ | ⟨-, hact, hend, rfl⟩ |
    ⟨-, hact, v, hsucc, rfl⟩ := execGnext_cases h
  · exact absurd hgen (Bool.eq_false_iff.mp hno)
  · exact (if_pos hidle).symm
  · have hne : s.genSt ≠ .idle := by simp [hdone]
    exact ((if_neg hne).trans (if_pos ((hs hne).2 hdone))).symm
  · have hne : s.genSt ≠ .idle := by simp [hact]
    exact ((if_neg hne).trans (if_pos (nextElement_eq_none (hs hne).1 hend))).symm
  · have hne : s.genSt ≠ .idle := by simp [hact]
    exact ((if_neg hne).trans (if_neg (ne_lastBitmap_of_nextElement (hs hne).1 hsucc))).symm

end Status

/-- GNEXT checks no configuration (R204). -/
theorem execGnext_status_ne_errConfig {s t : State} (h : execGnext s = .next t) :
    t.rspStatus ≠ statusCode .errConfig := by
  obtain ⟨-, rfl⟩ | ⟨-, -, rfl⟩ | ⟨-, -, rfl⟩ | ⟨-, -, -, rfl⟩ | ⟨-, -, v, -, rfl⟩ :=
    execGnext_cases h
  · exact (by decide : statusCode .errIllegal ≠ statusCode .errConfig)
  · exact (by decide : statusCode .errState ≠ statusCode .errConfig)
  · exact (by decide : statusCode .sequenceEnd ≠ statusCode .errConfig)
  · exact (by decide : statusCode .sequenceEnd ≠ statusCode .errConfig)
  · exact (by decide : statusCode .ok ≠ statusCode .errConfig)

/-! ### The words that spell a command (30_encoding.md R83, R85, R86) -/

/-- A word that is not illegal spells the command of its opcode, which is 1 to 5. -/
theorem decode_of_not_illegalWord {w : CmdWord} (h : ¬IllegalWord w) :
    (opField w = 1 ∧ decode w = .ok (.binom (nField w) (kField w))) ∨
      (opField w = 2 ∧ decode w = .ok (.rank (nField w) (kField w) (argField w))) ∨
      (opField w = 3 ∧ decode w = .ok (.unrank (nField w) (kField w) (argField w).toNat)) ∨
      (opField w = 4 ∧ decode w = .ok (.gstart (nField w) (kField w))) ∨
      (opField w = 5 ∧ decode w = .ok .gnext) := by
  rw [IllegalWord] at h
  push Not at h
  obtain ⟨h0, h1, h2, hpos, hlt⟩ := h
  rw [decode_of_reservedZero ⟨h0, h1, h2⟩]
  obtain hop | hop | hop | hop | hop : opField w = 1 ∨ opField w = 2 ∨ opField w = 3 ∨
    opField w = 4 ∨ opField w = 5 := by omega
  · exact .inl ⟨hop, by rw [hop]; rfl⟩
  · exact .inr (.inl ⟨hop, by rw [hop]; rfl⟩)
  · exact .inr (.inr (.inl ⟨hop, by rw [hop]; rfl⟩))
  · exact .inr (.inr (.inr (.inl ⟨hop, by rw [hop]; rfl⟩)))
  · exact .inr (.inr (.inr (.inr ⟨hop, by rw [hop]; rfl⟩)))

/-! ### The obligations -/

/-- Settles O40, by the error equations of RANK, UNRANK and GNEXT. -/
theorem operandErrorsAreReported : Obligations.OperandErrorsAreReported := fun _ _ _ _ s =>
  ⟨execRank_of_bitmapError s, execUnrank_of_rankError, execGnext_of_idle⟩

/-- Settles O41: every performed word posts a response, of a consistent form. -/
theorem everyCommandPostsOneResponse : Obligations.EveryCommandPostsOneResponse := by
  intro w s t h
  obtain ⟨u, -, ht⟩ := runWord_writes h
  exact ⟨ht.ifSt_eq, ht.responseConsistent⟩

/-- Settles O42: the word spells a command or none, and each command's status follows its own checks
in turn; the invariant ties the table to C(n, k) and the generator registers to the sequence's end. -/
theorem statusFollowsThePriority : Obligations.StatusFollowsThePriority := by
  intro w s t hs hgen h
  by_cases hill : IllegalWord w
  · rw [runWord_of_illegalWord hill] at h
    cases h
    exact (if_pos hill).symm
  · rw [if_neg hill]
    obtain ⟨hop, hdec⟩ | ⟨hop, hdec⟩ | ⟨hop, hdec⟩ | ⟨hop, hdec⟩ | ⟨hop, hdec⟩ :=
      decode_of_not_illegalWord hill
    all_goals rw [runWord_of_decode_ok hdec] at h
    · simpa [hop] using execBinom_status h
    · simpa [hop] using execRank_status h
    · simpa [hop] using execUnrank_status hs.rom h
    · simpa [hop] using execGstart_status hgen h
    · simpa [hop] using execGnext_status hgen hs.generator h

/-- Settles O43: an error is neither OK nor END, so the command wrote only its response. -/
theorem errorsArePrecise : Obligations.ErrorsArePrecise := by
  intro w s t h hlow hhigh
  have hok : t.rspStatus ≠ 0#3 := fun hcode => by simp [hcode] at hlow
  have hend : t.rspStatus ≠ 5#3 := fun hcode => by simp [hcode] at hhigh
  have hposts : Posts s t := (runWord_posts_or_ok_or_end h).resolve_right (not_or.mpr ⟨hok, hend⟩)
  exact hposts.eq_posted hok

/-- Settles O39: the check of the configuration is each command's first, and GNEXT has none. -/
theorem configErrorsAreRejectedFirst : Obligations.ConfigErrorsAreRejectedFirst := fun s =>
  ⟨fun _ _ r _ herr => ⟨execBinom_of_configError herr s, execRank_of_configError s herr,
      execUnrank_of_configError herr r s, fun hgen => execGstart_of_configError hgen herr⟩,
    fun _ => execGnext_status_ne_errConfig⟩

end Sys2Proof.Machine

/-! PROOFS for 70_reset_and_hazards.md: a reset edge (R230), the command port on an edge where no command
transfers (R237), and a response that the host does not take (R238). -/

namespace Sys2Proof.Machine

/-! ### A clock edge with reset (R230) -/

section WithReset
variable {s : State} (hrst : (currentPins s).rst = true)
include hrst

theorem step_of_reset : step s = .next (resetRegisters (passEdge s)) := if_pos hrst

theorem cmdReady_of_reset : cmdReady s = false := by
  simp [cmdReady, hrst]

theorem outstandingAfter_of_reset (o : Option CmdWord) : outstandingAfter o s = none := if_pos hrst

end WithReset

/-! ### The command port (R65, R237) -/

theorem cmdValid_eq_false_of_acceptedWord_eq_none {s : State} (hrst : (currentPins s).rst = false)
    (hphase : s.ifSt = .ready) (hnone : acceptedWord s = none) :
    (currentPins s).cmdValid = false := by
  refine Bool.eq_false_iff.mpr fun hvalid => ?_
  rw [acceptedWord_of_offer hrst hphase hvalid] at hnone
  cases hnone

/-- Two states that differ only in the ports at the coming edge step alike, if the ports agree on `rst`
and `rsp_ready` and no command transfers. -/
theorem step_eq_of_no_command {s s' : State} (hpass : passEdge s = passEdge s')
    (hrst : (currentPins s).rst = (currentPins s').rst)
    (hready : (currentPins s).rspReady = (currentPins s').rspReady)
    (hnone : acceptedWord s = none) (hnone' : acceptedWord s' = none) : step s = step s' := by
  have hphase : s.ifSt = s'.ifSt := by simpa using congrArg State.ifSt hpass
  have hwith (phase : IfPhase) :
      passEdge { s with ifSt := phase } = passEdge { s' with ifSt := phase } :=
    congrArg (fun t : State => { t with ifSt := phase }) hpass
  generalize hrst' : (currentPins s').rst = rst at hrst
  generalize hphase' : s'.ifSt = phase at hphase
  generalize hready' : (currentPins s').rspReady = ready at hready
  cases rst with
  | true => rw [step_of_reset hrst, step_of_reset hrst', hpass]
  | false =>
    cases phase with
    | ready =>
      have hvalid := cmdValid_eq_false_of_acceptedWord_eq_none hrst hphase hnone
      have hvalid' := cmdValid_eq_false_of_acceptedWord_eq_none hrst' hphase' hnone'
      rw [step_of_no_offer hrst hphase hvalid, step_of_no_offer hrst' hphase' hvalid', hpass]
    | busy w wait =>
      cases wait with
      | zero => rw [step_of_due hrst hphase, step_of_due hrst' hphase', hpass]
      | succ m => rw [step_of_wait hrst hphase, step_of_wait hrst' hphase', hwith]
    | resp =>
      cases ready with
      | true =>
        rw [step_of_taken hrst hphase hready, step_of_taken hrst' hphase' hready']
        exact congrArg _ (hwith .ready)
      | false =>
        rw [step_of_not_taken hrst hphase hready, step_of_not_taken hrst' hphase' hready', hpass]

/-! ### A response that is not taken (R238) -/

/-- What holds of the host's next port values, and of an idle host, holds of the ports at the coming
edge. -/
theorem currentPins_of_forall_mem_take {P : Pins → Prop} {s : State} {m : Nat} (hidle : P Pins.idle)
    (h : ∀ p ∈ s.host.take (m + 1), P p) : P (currentPins s) := by
  unfold currentPins
  cases hhost : s.host with
  | nil => exact hidle
  | cons p rest => exact h p (by simp [hhost])

theorem mem_take_succ_of_mem_take_tail {host : List Pins} {m : Nat} {p : Pins}
    (hp : p ∈ host.tail.take m) : p ∈ host.take (m + 1) := by
  cases host with
  | nil => simp at hp
  | cons q rest => exact List.mem_cons_of_mem q hp

/-- While a response is not taken, edges go by and do nothing else. -/
theorem clockEdges_of_not_taken {m : Nat} {s : State} (hphase : s.ifSt = .resp)
    (hhost : ∀ p ∈ s.host.take m, p.rst = false ∧ p.rspReady = false) :
    clockEdges m s = .next (passEdges m s) := by
  induction m generalizing s with
  | zero => rfl
  | succ m ih =>
    obtain ⟨hrst, hready⟩ := currentPins_of_forall_mem_take
      (P := fun p => p.rst = false ∧ p.rspReady = false) ⟨rfl, rfl⟩ hhost
    calc clockEdges (m + 1) s
      _ = clockEdges m (passEdge s) := clockEdges_succ (step_of_not_taken hrst hphase hready) m
      _ = .next (passEdges m (passEdge s)) :=
        ih hphase fun p hp => hhost p (mem_take_succ_of_mem_take_tail hp)
      _ = .next (passEdges (m + 1) s) := by rw [passEdges_passEdge]

/-! ### The obligations -/

/-- Settles O50: once the edge has gone by, the port values on it are gone, so the two states differ
only in them. -/
theorem commandPortIsSampledOnTransferOnly : Obligations.CommandPortIsSampledOnTransferOnly :=
  fun _ _ _ _ hrst hready hnone hnone' => step_eq_of_no_command rfl hrst hready hnone hnone'

/-- Settles O51: the edges only go by, so the block stays in RESP, where the ports show the response
registers. -/
theorem responseStandsUntilTaken : Obligations.ResponseStandsUntilTaken := by
  intro m s hphase hhost
  obtain ⟨-, hvalid, hports⟩ := outputPortsFollowTheRegisters (passEdges m s)
  exact ⟨clockEdges_of_not_taken hphase hhost, hports (hvalid.mpr hphase)⟩

/-- Settles O45: reset wins over whatever the phase is, and closes the command channel. -/
theorem resetEdgeGivesTheResetState : Obligations.ResetEdgeGivesTheResetState := fun _ hrst =>
  ⟨step_of_reset hrst, cmdReady_of_reset hrst, acceptedWord_eq_none (cmdReady_of_reset hrst),
    outstandingAfter_of_reset hrst⟩

end Sys2Proof.Machine
